-- ==== Sys2Proof/Word.lean ====
section
/-! DEFINITION. The machine's words: the plain bit-vector types that the manual numbers its values in. -/

namespace Sys2Proof

/-- A general register, a CSR, a virtual address: 64 bits (R71, R73, R161). -/
abbrev Word := BitVec 64

/-- The smallest addressable unit (R200). -/
abbrev Byte := BitVec 8

/-- An instruction word (R297). -/
abbrev IWord := BitVec 32

/-- A 6-bit operand field: a register, tile or bank name, or a small immediate (R299). -/
abbrev Field := BitVec 6

/-- A fabric die in the HOME form of R2: package in [9:0], die in [11:10]. -/
abbrev DieKey := BitVec 12

/-- A context bank in the form of LOC[19:0] (R78). -/
abbrev Loc := BitVec 20

/-- A package number (R2). -/
abbrev Pkg := BitVec 10

end Sys2Proof
end

