-- ==== Sys2Proof/Syntax.lean ====
section
/-! DEFINITION. The steps of the machine: one constructor of `Instr` for each row of the opcode table.
A row with a word carries the word's operand fields under the names the table gives them. A row without a
word (an event of the device, a host action, a Sluice command) carries who it happens to; a row about a message
acts on the message the state names as the subject of the step. -/

namespace Sys2Proof

/-- The four streams of a strand, in the order of their tags (R18). -/
inductive Stream where
  | c | l | x | s
  deriving DecidableEq, Repr

/-- A Sluice command: eight 64-bit words (R283). -/
structure Command where
  w0 : Word
  w1 : Word
  w2 : Word
  w3 : Word
  w4 : Word
  w5 : Word
  w6 : Word
  w7 : Word
  deriving DecidableEq, Repr

/-- One constructor per row of the opcode table. -/
inductive Instr where
  /-- R333. Writes the 64-bit wrapping sum of two general registers. -/
  | add (d : Field) (a : Field) (b : Field)
  /-- R431. Writes the 64-bit wrapping difference of two general registers. -/
  | sub (d : Field) (a : Field) (b : Field)
  /-- R402. Writes bits [63:0] of the product of two registers. -/
  | mul (d : Field) (a : Field) (b : Field)
  /-- R402. Writes bits [127:64] of the signed product of two registers. -/
  | mulh (d : Field) (a : Field) (b : Field)
  /-- R402. Writes bits [127:64] of the unsigned product of two registers. -/
  | mulhu (d : Field) (a : Field) (b : Field)
  /-- R371. Writes the signed quotient truncated towards zero, with fixed results for division by zero and overflow. -/
  | div (d : Field) (a : Field) (b : Field)
  /-- R371. Writes the unsigned quotient, or all ones for division by zero. -/
  | divu (d : Field) (a : Field) (b : Field)
  /-- R412. Writes the signed remainder that completes DIV. -/
  | rem (d : Field) (a : Field) (b : Field)
  /-- R412. Writes the unsigned remainder that completes DIVU. -/
  | remu (d : Field) (a : Field) (b : Field)
  /-- R340. Writes the bitwise and of two registers. -/
  | and (d : Field) (a : Field) (b : Field)
  /-- R404. Writes the bitwise or of two registers. -/
  | or (d : Field) (a : Field) (b : Field)
  /-- R477. Writes the bitwise exclusive or of two registers. -/
  | xor (d : Field) (a : Field) (b : Field)
  /-- R421. Shifts a register left by a register count mod 64. -/
  | shl (d : Field) (a : Field) (b : Field)
  /-- R421. Shifts a register right logically by a register count mod 64. -/
  | shr (d : Field) (a : Field) (b : Field)
  /-- R421. Shifts a register right arithmetically by a register count mod 64. -/
  | sra (d : Field) (a : Field) (b : Field)
  /-- R424. Writes 1 when the first register is less than the second, signed. -/
  | slt (d : Field) (a : Field) (b : Field)
  /-- R424. Writes 1 when the first register is less than the second, unsigned. -/
  | sltu (d : Field) (a : Field) (b : Field)
  /-- R394. Writes the signed lesser of two registers. -/
  | min (d : Field) (a : Field) (b : Field)
  /-- R394. Writes the signed greater of two registers. -/
  | max (d : Field) (a : Field) (b : Field)
  /-- R394. Writes the unsigned lesser of two registers. -/
  | minu (d : Field) (a : Field) (b : Field)
  /-- R394. Writes the unsigned greater of two registers. -/
  | maxu (d : Field) (a : Field) (b : Field)
  /-- R420. Selects one of two registers by whether the destination is non-zero. -/
  | sel (d : Field) (a : Field) (b : Field)
  /-- R363. Counts the leading zero bits of a register. -/
  | clz (d : Field) (a : Field)
  /-- R408. Counts the set bits of a register. -/
  | popc (d : Field) (a : Field)
  /-- R421. Shifts a register left by an immediate count. -/
  | shli (d : Field) (a : Field) (b : Field)
  /-- R421. Shifts a register right logically by an immediate count. -/
  | shri (d : Field) (a : Field) (b : Field)
  /-- R421. Shifts a register right arithmetically by an immediate count. -/
  | srai (d : Field) (a : Field) (b : Field)
  /-- R333. Adds a sign-extended 12-bit immediate to a register. -/
  | addi (d : Field) (a : Field) (i : BitVec 12)
  /-- R340. Ands a register with a sign-extended immediate. -/
  | andi (d : Field) (a : Field) (i : BitVec 12)
  /-- R404. Ors a register with a sign-extended immediate. -/
  | ori (d : Field) (a : Field) (i : BitVec 12)
  /-- R477. Exclusive-ors a register with a sign-extended immediate. -/
  | xori (d : Field) (a : Field) (i : BitVec 12)
  /-- R424. Writes 1 when a register is less than a sign-extended immediate, signed. -/
  | slti (d : Field) (a : Field) (i : BitVec 12)
  /-- R351. Extracts a zero-extended bit field from a register. -/
  | bfx (d : Field) (a : Field) (l : Field) (p : Field)
  /-- R350. Inserts the low bits of a register into a field of the destination. -/
  | bfi (d : Field) (a : Field) (l : Field) (p : Field)
  /-- R302. Writes a sign-extended 18-bit immediate to a register. -/
  | li (d : Field) (i : BitVec 18)
  /-- R302. Sets bits [63:24] of the register of the preceding LI from a 24-bit immediate. -/
  | lih (i : BitVec 24)
  /-- R348. Branches unconditionally after two delay slots. -/
  | b (o : BitVec 24)
  /-- R356. Writes the return address to g63 and branches. -/
  | call (o : BitVec 24)
  /-- R386. Branches to the address held in a register. -/
  | jr (a : Field)
  /-- R393. Decrements a count, rotates the tile window and branches while the count is non-zero. -/
  | loop (a : Field) (o : BitVec 12)
  /-- R349. Branches when two registers are equal. -/
  | beq (a : Field) (b : Field) (o : BitVec 12)
  /-- R349. Branches when two registers differ. -/
  | bne (a : Field) (b : Field) (o : BitVec 12)
  /-- R349. Branches when the first register is less, signed. -/
  | blt (a : Field) (b : Field) (o : BitVec 12)
  /-- R349. Branches when the first register is greater or equal, signed. -/
  | bge (a : Field) (b : Field) (o : BitVec 12)
  /-- R349. Branches when the first register is less, unsigned. -/
  | bltu (a : Field) (b : Field) (o : BitVec 12)
  /-- R349. Branches when the first register is greater or equal, unsigned. -/
  | bgeu (a : Field) (b : Field) (o : BitVec 12)
  /-- R370. Reads a CSR into a general register. -/
  | csrR (d : Field) (c : BitVec 12)
  /-- R370. Reads a CSR and writes it from a register, with field checks and side effects. -/
  | csrW (d : Field) (a : Field) (c : BitVec 12)
  /-- R370. Reads a CSR and sets the bits given in a register. -/
  | csrS (d : Field) (a : Field) (c : BitVec 12)
  /-- R370. Reads a CSR and clears the bits given in a register. -/
  | csrC (d : Field) (a : Field) (c : BitVec 12)
  /-- R433. Writes a tile configuration from a general register. -/
  | tcfg (n : Field) (a : Field)
  /-- R413. Draws one value of the counter-based generator with a register seed. -/
  | rng (d : Field) (a : Field) (b : Field)
  /-- R413. Draws one value of the counter-based generator with the rank seed. -/
  | rngRs (d : Field) (a : Field) (b : Field)
  /-- R432. Retires and stops the strand with cause TRAP and its code. -/
  | trap (c : BitVec 24)
  /-- R432. Retires and stops the strand with cause SYS and its code. -/
  | sys (c : BitVec 24)
  /-- R373. Waits for earlier effects and pushes a nest record onto one of the rank's work queues. -/
  | enq (d : Field) (q : Field) (n : BitVec 2)
  /-- R390. Loads from the scratchpad window without touching full-empty bits. -/
  | lds (d : Field) (a : Field) (s : BitVec 2) (o : BitVec 10)
  /-- R430. Stores to the scratchpad window without touching full-empty bits. -/
  | sts (d : Field) (a : Field) (s : BitVec 2) (o : BitVec 10)
  /-- R389. Loads from device memory in domains 0 to 30, faulting precisely. -/
  | ldg (d : Field) (a : Field) (s : BitVec 2) (o : BitVec 10)
  /-- R429. Stores to device memory, posting remote failures to the error queue. -/
  | stg (d : Field) (a : Field) (s : BitVec 2) (o : BitVec 10)
  /-- R389. Reads a value cell as an acquire. -/
  | ldgAcq (d : Field) (a : Field) (o : BitVec 10)
  /-- R429. Waits for earlier effects and writes a value cell as a release. -/
  | stgRel (d : Field) (a : Field) (o : BitVec 10)
  /-- R388. Waits for an LS granule to be full, then reads it and leaves it full. -/
  | ldfK (d : Field) (a : Field) (s : BitVec 2) (o : BitVec 10)
  /-- R388. Waits for an LS granule to be full, then reads it and empties it. -/
  | ldfC (d : Field) (a : Field) (s : BitVec 2) (o : BitVec 10)
  /-- R475. Waits until an LS range is full and leaves it full. -/
  | waitfK (p : Field) (q : Field)
  /-- R475. Waits until an LS range is full and then empties it. -/
  | waitfC (p : Field) (q : Field)
  /-- R339. Performs an indivisible read-modify-write of one memory word. -/
  | amo (d : Field) (a : Field) (b : Field) (u : Bool) (w : Bool) (o : BitVec 3)
  /-- R360. Compares a memory word and swaps in a new value when it matches. -/
  | cas (d : Field) (a : Field) (b : Field) (w : Bool)
  /-- R332. Requests an exclusive hold on a sync cell. -/
  | acq (p : Field)
  /-- R332. Requests a shared hold on a sync cell. -/
  | acqSh (p : Field)
  /-- R411. Waits for earlier effects and releases a sync cell at its serving die. -/
  | rel (p : Field)
  /-- R353. Binds a region to a sync cell in one binding-table entry. -/
  | bind (p : Field) (q : Field) (r : Field) (e : Field)
  /-- R187. Offers a polder lease from a descriptor and waits for its status. -/
  | lend (d : Field) (q : Field)
  /-- R188. Acts on one lease entry, starting a reclaim or freeing a returned or fenced entry. -/
  | reclaim (d : Field) (q : Field)
  /-- R177. Invalidates TLB entries covering an address and waits until no request can use them. -/
  | tlbi (p : Field)
  /-- R177. Invalidates every TLB entry of an address space. -/
  | tlbiSp (p : Field)
  /-- R180. Splits a large page into smaller leaves. -/
  | pgsplit (d : Field) (a : Field)
  /-- R181. Collapses a READ_DUP page onto one owner replica. -/
  | pgcoll (d : Field) (a : Field) (b : Field)
  /-- R182. Moves a DIRECT or MIGRATE page to a frame on a named die and tier. -/
  | pgmig (d : Field) (a : Field) (b : Field)
  /-- R179. A page procedure ends and writes its status to the waiting strand. -/
  | pageProcedureDone (loc : Loc)
  /-- R403. Occupies one position of the walk with no effect. -/
  | nop (t : Stream)
  /-- R212. Waits until earlier words have performed at the given scope before later accesses. -/
  | fence (t : Stream) (f : Field)
  /-- R423. Adds a count to a token counter after the stream's earlier scratchpad effects. -/
  | sigk (t : Stream) (k : BitVec 4) (n : BitVec 16)
  /-- R476. Waits until a token counter holds a count and subtracts it. -/
  | waitk (t : Stream) (k : BitVec 4) (n : BitVec 16)
  /-- R342. Initialises an arrival counter for phases of n bytes. -/
  | arinit (t : Stream) (p : Field) (q : Field) (x : Bool)
  /-- R344. Waits until an arrival counter's phase equals a value. -/
  | arwait (t : Stream) (p : Field) (x : Bool) (h : Bool)
  /-- R377. Sets the full-empty bits of an LS range. -/
  | fset (t : Stream) (p : Field) (q : Field) (x : Bool)
  /-- R377. Clears the full-empty bits of an LS range. -/
  | fclr (t : Stream) (p : Field) (q : Field) (x : Bool)
  /-- R437. Loads a tile image from memory. -/
  | tld (n : Field) (b : Field) (o : BitVec 12)
  /-- R440. Loads a tile with a transposed source, in blocks. -/
  | tldt (n : Field) (b : Field) (o : BitVec 12)
  /-- R438. Waits until an LS range is full, loads the tile and empties the range. -/
  | tldk (n : Field) (b : Field) (o : BitVec 12)
  /-- R362. Loads the core's 1 KiB codebook table. -/
  | cbld (b : Field) (o : BitVec 12)
  /-- R381. Copies table rows chosen by an index list into a scratchpad. -/
  | gather (p : Field) (q : Field) (r : Field) (x : Bool) (l : BitVec 2)
  /-- R384. Reduces bags of embedding rows near memory into FP32 rows. -/
  | gred (p : Field) (q : Field) (r : Field) (x : Bool) (l : BitVec 2) (f : Bool) (o : Bool)
  /-- R365. Issues an asynchronous chunked copy reporting to an arrival counter. -/
  | cpy (s : Bool) (p : Field) (q : Field) (r : Field) (x : Bool)
  /-- R367. Issues an asynchronous two-dimensional copy. -/
  | cpyt (s : Bool) (p : Field) (q : Field) (r : Field) (x : Bool)
  /-- R443. Copies 4,096 bytes between scratchpad addresses synchronously. -/
  | tmov (s : Bool) (p : Field) (q : Field) (x : Bool)
  /-- R456. Adds tiles element-wise with one rounding. -/
  | vadd (d : Field) (a : Field) (b : Field) (r : BitVec 3)
  /-- R456. Subtracts tiles element-wise with one rounding. -/
  | vsub (d : Field) (a : Field) (b : Field) (r : BitVec 3)
  /-- R456. Multiplies tiles element-wise with one rounding. -/
  | vmul (d : Field) (a : Field) (b : Field) (r : BitVec 3)
  /-- R464. Fused multiply-add into the destination tile. -/
  | vfma (d : Field) (a : Field) (b : Field) (r : BitVec 3)
  /-- R464. Fused multiply minus the destination tile. -/
  | vfms (d : Field) (a : Field) (b : Field) (r : BitVec 3)
  /-- R464. Destination tile minus a fused product. -/
  | vfnma (d : Field) (a : Field) (b : Field) (r : BitVec 3)
  /-- R467. Element-wise exact minimum of two tiles. -/
  | vmin (d : Field) (a : Field) (b : Field) (u : Bool) (q : Bool)
  /-- R467. Element-wise exact maximum of two tiles. -/
  | vmax (d : Field) (a : Field) (b : Field) (u : Bool) (q : Bool)
  /-- R455. Element-wise absolute value. -/
  | vabs (d : Field) (a : Field)
  /-- R455. Element-wise negation. -/
  | vneg (d : Field) (a : Field)
  /-- R459. Element-wise comparison writing all-ones or zero. -/
  | vcmp (d : Field) (a : Field) (b : Field) (u : Bool) (c : BitVec 3)
  /-- R473. Selects each lane from one of two tiles by the top mask. -/
  | vsel (d : Field) (a : Field) (b : Field)
  /-- R461. Converts a tile to another format, applying scales. -/
  | vcvt (d : Field) (a : Field) (r : BitVec 3)
  /-- R465. Integer element-wise addition, wrapping or saturating. -/
  | viadd (d : Field) (a : Field) (b : Field) (s : Bool)
  /-- R465. Integer element-wise subtraction, wrapping or saturating. -/
  | visub (d : Field) (a : Field) (b : Field) (s : Bool)
  /-- R465. Integer element-wise multiplication, wrapping or saturating. -/
  | vimul (d : Field) (a : Field) (b : Field) (s : Bool)
  /-- R457. Lane-wise bitwise and. -/
  | vand (d : Field) (a : Field) (b : Field)
  /-- R457. Lane-wise bitwise or. -/
  | vor (d : Field) (a : Field) (b : Field)
  /-- R457. Lane-wise bitwise exclusive or. -/
  | vxor (d : Field) (a : Field) (b : Field)
  /-- R457. Lane-wise complement. -/
  | vnot (d : Field) (a : Field)
  /-- R474. Element-wise left shift. -/
  | vshl (d : Field) (a : Field) (b : Field) (i : Bool)
  /-- R474. Element-wise logical right shift. -/
  | vshr (d : Field) (a : Field) (b : Field) (i : Bool)
  /-- R474. Element-wise arithmetic right shift. -/
  | vsra (d : Field) (a : Field) (b : Field) (i : Bool)
  /-- R468. Copies every lane of one tile to another. -/
  | vmov (d : Field) (a : Field)
  /-- R468. Broadcasts the low 32 bits of a general register to every lane. -/
  | vmovG (d : Field) (a : Field)
  /-- R458. Broadcasts one column of lanes along each row. -/
  | vbcr (d : Field) (a : Field) (c : Field)
  /-- R458. Broadcasts one row of lanes along each column. -/
  | vbcc (d : Field) (a : Field) (r : BitVec 4)
  /-- R471. Rotates lanes along the row axis. -/
  | vrotr (d : Field) (a : Field) (s : Field)
  /-- R471. Rotates lanes along the column axis. -/
  | vrotc (d : Field) (a : Field) (s : BitVec 4)
  /-- R469. Reduces each vector row by a fixed pairwise tree. -/
  | vredr (d : Field) (a : Field) (o : BitVec 2) (r : BitVec 3)
  /-- R469. Reduces each vector column by a fixed pairwise tree. -/
  | vredc (d : Field) (a : Field) (o : BitVec 2) (r : BitVec 3)
  /-- R472. Serial prefix scan along each vector row. -/
  | vscanr (d : Field) (a : Field) (x : Bool) (o : BitVec 2) (r : BitVec 3)
  /-- R472. Serial prefix scan along each vector column. -/
  | vscanc (d : Field) (a : Field) (x : Bool) (o : BitVec 2) (r : BitVec 3)
  /-- R466. Writes a register value plus the lane number to each lane. -/
  | viota (d : Field) (a : Field)
  /-- R470. Draws counter-based random values or keep masks per lane. -/
  | vrng (d : Field) (a : Field) (b : Field) (s : Bool) (f : BitVec 2)
  /-- R460. Evaluates a CORDIC function per element. -/
  | vcor (d : Field) (a : Field) (i : BitVec 5) (f : BitVec 3)
  /-- R462. Merges addends into decay-stamped elements. -/
  | vdkadd (d : Field) (a : Field) (b : Field)
  /-- R463. Applies decay to stamped elements, optionally restamping. -/
  | vdkapp (d : Field) (a : Field)
  /-- R396. Pushes a tile's lane mask anded with the top mask. -/
  | mpush (a : Field)
  /-- R396. Pushes a tile's lane mask as a new top mask. -/
  | mpushNew (a : Field)
  /-- R354. Branches when the top mask is all zero, resolved by the X stream. -/
  | bmz (o : BitVec 12)
  /-- R399. Multiplies two tiles and accumulates exactly into accumulator banks. -/
  | mma (d : Field) (a : Field) (b : Field)
  /-- R401. Grouped multiply-accumulate with ragged row groups. -/
  | mmag (p : Field) (q : Field) (r : Field)
  /-- R330. Allocates a range of accumulator banks to the strand. -/
  | aalloc (d : Field) (a : Field)
  /-- R337. Frees a range of accumulator banks, deferring those an AST still reads. -/
  | afree (d : Field) (a : Field)
  /-- R347. Sets every entry of a range of owned banks to +0. -/
  | azero (d : Field) (a : Field)
  /-- R328. Adds a tile into accumulator banks with one rounding per entry. -/
  | aadd (d : Field) (a : Field)
  /-- R336. Converts accumulator rows and stores them for the X stream. -/
  | adrain (p : Field) (q : Field)
  /-- R446. Rounds accumulator rows into a tile. -/
  | tunpk (d : Field) (a : Field) (r : BitVec 3)
  /-- R437. Stores a tile image to memory. -/
  | tst (n : Field) (b : Field) (o : BitVec 12)
  /-- R438. Waits until an LS range is empty, stores the tile and fills the range. -/
  | tstk (n : Field) (b : Field) (o : BitVec 12)
  /-- R346. Starts the accumulator epilogue drain in the S stream. -/
  | ast (p : Field) (q : Field) (x : Bool)
  /-- R416. Overwrites table rows chosen by an index list with tile rows. -/
  | scat (p : Field) (q : Field) (r : Field) (x : Bool) (l : BitVec 2)
  /-- R416. Accumulates tile rows into table rows chosen by an index list. -/
  | scata (p : Field) (q : Field) (r : Field) (x : Bool) (k : BitVec 2) (l : BitVec 2)
  /-- R453. Applies a fused optimizer update to parameter and moment rows. -/
  | upd (p : Field) (q : Field) (r : Field) (x : Bool) (f : BitVec 2) (l : BitVec 2)
  /-- R359. Issues an all-reduce on a communicator. -/
  | car (p : Field) (q : Field) (r : Field) (x : Bool)
  /-- R368. Issues a reduce-scatter on a communicator. -/
  | crs (p : Field) (q : Field) (r : Field) (x : Bool)
  /-- R355. Issues an all-gather on a communicator. -/
  | cag (p : Field) (q : Field) (r : Field) (x : Bool)
  /-- R361. Issues a broadcast from a root position. -/
  | cbc (p : Field) (q : Field) (r : Field) (x : Bool)
  /-- R476. A waiting WAITK finds its counter high enough and subtracts. -/
  | waitkSatisfied (loc : Loc) (st : Stream)
  /-- R423. A SIGK waiting for room adds its count once the counter allows. -/
  | sigkRoom (loc : Loc) (st : Stream)
  /-- R143. A waiting LDF, WAITF, TLDK or TSTK finds its granules in the needed state and proceeds. -/
  | fullEmptyWaitDone (loc : Loc) (st : Stream)
  /-- R344. A waiting ARWAIT sees the phase it waits for. -/
  | arwaitDone (loc : Loc) (st : Stream)
  /-- R382. Every live strand of the gang has reached the episode's GBAR and all proceed. -/
  | gbarEpisodeComplete (gang : Nat)
  /-- R57. The matrix array is granted round robin to a requesting bank. -/
  | matrixArrayGrant (core : BitVec 18)
  /-- R57. A matrix lease reaches 16 commands or 4,096 cycles and becomes LAPSED. -/
  | leaseLapse (loc : Loc)
  /-- R58. EXIT's waits end, the strand ends and its lease, banks, holds and bank are released. -/
  | exitRetire (loc : Loc)
  /-- R36. STEP retires at the home die and the boundary's ordered actions take place. -/
  | stepBoundary (loc : Loc)
  /-- R479. A parked bank becomes ready again after 256 cycles or when its core is otherwise idle. -/
  | bankUnpark (loc : Loc)
  /-- R236. After issued words drain, the fault frame is written and the bank becomes FAULTED. -/
  | strandFaultStop (loc : Loc)
  /-- R148. A chunk of an asynchronous command completes and counts into its arrival counter. -/
  | chunkArrive (loc : Loc) (slot : BitVec 6) (ahead : BitVec 4)
  /-- R148. A chunk of an asynchronous command fails and the strand stops with ASYNC. -/
  | chunkFault (loc : Loc) (slot : BitVec 6)
  /-- R346. An AST writes its trailer, freeing any DRAINING banks. -/
  | astFinish (loc : Loc)
  /-- R227. An idle sibling core takes a relocatable command from a core's engine queue. -/
  | commandRelocate (loc : Loc) (slot : BitVec 6) (core : BitVec 3)
  /-- R219. The scheduler activates the ready head of the highest-priority queue. -/
  | nestActivate (rank : Nat)
  /-- R225. A walker dispatches the next ordinal of a nest into a fitting gang slot. -/
  | gangDispatch (rank : Nat) (lp : Nat)
  /-- R230. A walker resumes a switched-out gang from its resume list. -/
  | gangResume (rank : Nat) (lp : Nat)
  /-- R230. A halted gang's state is saved and its segments become IDLE. -/
  | gangSwitchOut (rank : Nat)
  /-- R229. The shadow-store exchange of a partition swap completes. -/
  | partitionExchangeDone (rank : Nat)
  /-- R157. A first access to an unbound segment binds it, claiming and saving a victim if needed. -/
  | segmentBind (loc : Loc) (addr : Word)
  /-- R257. The management plane replaces one route table entry. -/
  | routeEntryLoad (pkg : Pkg) (dest : Pkg) (entry : Word)
  /-- R253. A link retries a corrupted flit and counts the retry. -/
  | linkRetry (die : DieKey) (port : BitVec 2)
  /-- R173. A hardware page copy ends and the PTE is rewritten. -/
  | hwMigrationDone (die : DieKey)
  /-- R193. One live polder page has been copied and its leaf rewritten. -/
  | pageDemoteDone (die : DieKey) (entry : BitVec 4)
  /-- R197. DLEFT reaches zero and the lender fences the region. -/
  | reclaimDeadline (die : DieKey) (entry : BitVec 4)
  /-- R198. The management plane reports a lost package and leases with it are fenced. -/
  | packageLost (pkg : Pkg) (lost : Pkg)
  /-- R268. Barchan finishes a pre-copy round of a migrating rank's pages. -/
  | precopyRound (rank : Nat)
  /-- R134. The sweep engine processes one page of a registered stamped region. -/
  | sweepPage (rank : Nat)
  /-- R273. The snapshot engine copies one private page into the shard. -/
  | snapshotPageCopy (rank : Nat)
  /-- R271. An error or excursion is counted by the management plane. -/
  | correctedError (die : DieKey) (counter : BitVec 3)
  /-- R294. A junction reaches 110 °C and the device stops at once. -/
  | thermalTrip (pkg : Pkg)
  /-- R294. A power or thermal limit engages or releases and the host is notified. -/
  | limitEngage (pkg : Pkg) (thermal : Bool) (engaged : Bool) (die : BitVec 2)
  /-- R290. A start step completes and is logged, and the next one begins. -/
  | startStepDone (pkg : Pkg) (cycles : BitVec 40)
  /-- R292. A start step fails, is logged and retried, or the start becomes FAILED. -/
  | startStepFail (pkg : Pkg) (code : BitVec 8) (cycles : BitVec 40)
  /-- R278. GO with KIND 1 starts a cold start. -/
  | startCold (pkg : Pkg)
  /-- R278. GO with KIND 2 starts a warm start when WARMOK is set. -/
  | startWarm (pkg : Pkg)
  /-- R279. STOP powers the device down at once or abandons a start. -/
  | stopCold (pkg : Pkg) (kind : BitVec 2)
  /-- R293. STOP with KIND 2 switches out all gangs, saves state and enters self-refresh. -/
  | stopWarm (pkg : Pkg)
  /-- R281. A write of SQTAIL advances the command ring or sets the overrun flag. -/
  | sqtailDoorbell (pkg : Pkg) (value : Word)
  /-- R282. The host advances CQHEAD, letting a stalled Sluice write completions again. -/
  | cqheadAdvance (pkg : Pkg) (value : Word)
  /-- R281. A host write to a window or control register with no row of its own. -/
  | hostRegisterWrite (pkg : Pkg) (off : BitVec 16) (value : Word)
  /-- R294. A state-window read arrives over the I3C sideband. -/
  | i3cWindowRead (pkg : Pkg) (addr : BitVec 48)
  /-- R294. A LIMIT setting is written over the I3C sideband. -/
  | i3cLimitWrite (pkg : Pkg) (sel : Word) (value : Word)
  /-- R284. Sluice ordered write of up to 32 bytes through a rank's translation. -/
  | write (pkg : Pkg) (c : Command)
  /-- R284. Sluice ordered write of host bytes into device memory. -/
  | copyin (pkg : Pkg) (c : Command)
  /-- R284. Sluice read of 8 bytes of device memory. -/
  | read (pkg : Pkg) (c : Command)
  /-- R284. Sluice copy of device bytes into host memory. -/
  | copyout (pkg : Pkg) (c : Command)
  /-- R216. Sluice release writing a value to a cell. -/
  | signal (pkg : Pkg) (c : Command)
  /-- R217. Sluice push of a nest record onto a rank's work queue. -/
  | launch (pkg : Pkg) (c : Command)
  /-- R218. Sluice write of one of a rank's counters. -/
  | cntw (pkg : Pkg) (c : Command)
  /-- R284. Sluice write of a rank CSR. -/
  | csrw (pkg : Pkg) (c : Command)
  /-- R496. Writes or frees a space table slot of a die. -/
  | tablewSpaceRoot (pkg : Pkg) (c : Command)
  /-- R496. Writes a replica set entry of a die. -/
  | tablewReplicaSet (pkg : Pkg) (c : Command)
  /-- R496. Writes a migration threshold of a die. -/
  | tablewMthr (pkg : Pkg) (c : Command)
  /-- R496. Adds frames to a die's frame pool of one tier. -/
  | tablewFramePoolAdd (pkg : Pkg) (c : Command)
  /-- R496. Removes frames from a die's frame pool of one tier. -/
  | tablewFramePoolRemove (pkg : Pkg) (c : Command)
  /-- R496. Adds 8 KiB blocks to a die's table pool. -/
  | tablewTablePoolAdd (pkg : Pkg) (c : Command)
  /-- R496. Removes 8 KiB blocks from a die's table pool. -/
  | tablewTablePoolRemove (pkg : Pkg) (c : Command)
  /-- R259. Writes or invalidates a communicator table entry of a rank. -/
  | tablewCommunicator (pkg : Pkg) (c : Command)
  /-- R496. Writes an endpoint entry of a rank, the home die setting CO. -/
  | tablewEndpoint (pkg : Pkg) (c : Command)
  /-- R496. Writes a rank's SAVEBASE, NIMG and CSBASE. -/
  | tablewSaveBases (pkg : Pkg) (c : Command)
  /-- R187. Sluice lease command offering a lease. -/
  | sluiceLend (pkg : Pkg) (c : Command)
  /-- R188. Sluice lease command acting on one lease entry. -/
  | sluiceReclaim (pkg : Pkg) (c : Command)
  /-- R268. Latches a migration of a rank to a new home die and starts its pre-copy. -/
  | migrate (pkg : Pkg) (c : Command)
  /-- R497. Switches out a named gang and every higher ordinal of its nest. -/
  | preemptGang (pkg : Pkg) (c : Command)
  /-- R497. Switches out a logical partition and optionally swaps another in. -/
  | preemptPartition (pkg : Pkg) (c : Command)
  /-- R251. Writes a general register of a FAULTED bank. -/
  | bankwGreg (pkg : Pkg) (c : Command)
  /-- R251. Writes a user CSR of a FAULTED bank. -/
  | bankwCsr (pkg : Pkg) (c : Command)
  /-- R251. Writes a tile image of a FAULTED bank from host memory. -/
  | bankwTile (pkg : Pkg) (c : Command)
  /-- R250. Resumes each stream of a FAULTED bank at its FPC. -/
  | resumeRetry (pkg : Pkg) (c : Command)
  /-- R250. Resumes a FAULTED bank with the faulting word treated as retired. -/
  | resumeSkip (pkg : Pkg) (c : Command)
  /-- R250. Ends a FAULTED strand, abandoning its commands and aborting its collectives. -/
  | resumeEnd (pkg : Pkg) (c : Command)
  /-- R284. Moves the oldest event queue entries to host memory. -/
  | evread (pkg : Pkg) (c : Command)
  /-- R272. Latches a snapshot request for the rank's next boundary. -/
  | snap (pkg : Pkg) (c : Command)
  /-- R275. Builds the parity rows of a group for a step. -/
  | parity (pkg : Pkg) (c : Command)
  /-- R276. Restores a job's ranks from the latest complete checkpoint step. -/
  | restore (pkg : Pkg) (c : Command)
  /-- R285. Creates a rank on its home die from a rank descriptor. -/
  | rankCreate (pkg : Pkg) (c : Command)
  /-- R285. Ends a rank that has no active nest or resident gang. -/
  | rankEnd (pkg : Pkg) (c : Command)
  /-- R177. Sluice TLB invalidation of the entries covering an address. -/
  | invalPage (pkg : Pkg) (c : Command)
  /-- R177. Sluice TLB invalidation of a whole address space. -/
  | invalSpace (pkg : Pkg) (c : Command)
  /-- R95. Reads one word of the management state window. -/
  | swread (pkg : Pkg) (c : Command)
  /-- R95. Copies a range of the state window to host memory. -/
  | swcopy (pkg : Pkg) (c : Command)
  /-- R287. Sets the package power limit. -/
  | limitPlimit (pkg : Pkg) (c : Command)
  /-- R287. Sets the junction temperature limit. -/
  | limitTlimit (pkg : Pkg) (c : Command)
  /-- R287. Sets the warning threshold of one die counter. -/
  | limitThreshold (pkg : Pkg) (c : Command)
  /-- R305. A stream reaches a word of its own tag with an unallocated major or fn, or a non-zero reserved field, and raises ILLEGAL. -/
  | illegalWord (w : IWord)
  /-- R283. The Sluice accepts a command whose OP, table code or selector names no operation and completes it with status 0xF0. -/
  | unknownOp (pkg : Pkg) (c : Command)
  /-- R426. Waits for the strand's earlier work and requests the rank's step boundary at the home die. -/
  | step
  /-- R478. Retires at once and parks the bank. -/
  | yield
  /-- R58. Waits for the strand's streams, commands and remote writes to finish before ending the strand. -/
  | exit
  /-- R60. Waits for earlier effects and marks the strand triggered as a job-scope release. -/
  | trig
  /-- R382. Arrives at the gang barrier's current episode. -/
  | gbar
  /-- R396. Inverts the top mask relative to the entry below. -/
  | minv
  /-- R396. Pops the mask stack. -/
  | mpop
  /-- R57. Ends any lease and requests the matrix array. -/
  | mlease
  /-- R57. Ends the matrix lease. -/
  | mrel
  /-- R163. A request arrives at its target die, is translated and served or refused. -/
  | peerRequest
  /-- R174. A response or refusal reaches the requesting strand. -/
  | peerResponse
  /-- R242. A failed remote write is appended to the strand's error queue. -/
  | errorQueuePost
  /-- R255. A package forwards or drops a request flit by its route table. -/
  | flitForward
  /-- R257. A request unanswered for 2^20 cycles fails with PEER_UNREACHABLE. -/
  | requestTimeout
  /-- R209. An acquire request reaches the cell's serving die and is queued or granted. -/
  | cellRequest
  /-- R209. A release reaches the serving die, updates the cell and grants waiting requests. -/
  | cellRelease
  /-- R332. A grant reaches the strand and marks its binding entries held. -/
  | cellGrant
  /-- R187. A lease offer reaches the lender, which checks it and takes an entry. -/
  | lendRequest
  /-- R187. The borrower receives the offer, takes an entry and answers. -/
  | leaseOffer
  /-- R187. The lender receives the answer and sets its entry ACTIVE or FREE. -/
  | offerAnswer
  /-- R193. The borrower takes a reclaim event and starts copying live pages. -/
  | reclaimEvent
  /-- R190. The lender receives the borrower's return and sets its entry RETURNED. -/
  | returnMessage
  /-- R197. The borrower receives the fence and poisons uncopied live pages. -/
  | fenceMessage
  /-- R191. A polder request reaches the lender and is served or refused. -/
  | polderRequest
  /-- R260. A collective message reaches an endpoint and is reduced, forwarded or found mismatched. -/
  | collectiveMessage
  /-- R265. An abort reaches a member and stops its command for that SEQ. -/
  | collectiveAbort
  /-- R269. A home die rewrites the migrated rank's endpoint entry in its ranks' tables. -/
  | endpointUpdate
  deriving DecidableEq, Repr

end Sys2Proof
end

