-- ==== Sys2Proof/WellFormed.lean ====
section
/-! DEFINITION. Which terms of `Instr` stand for an instruction that the part has: the conditions of R305 step 1 that
depend on the word alone, and for rows without a word the ranges that their rules give. -/

namespace Sys2Proof

/-- A rounding field is RNE, RTZ, RUP, RDN, RSTO or dynamic (R313). -/
def roundingOk (r : BitVec 3) : Bool := r ≠ 5 && r ≠ 6

/-- The rounding field of the reductions and scans, which bars RSTO as well (R469). -/
def reductionRoundingOk (r : BitVec 3) : Bool := r ≠ 4 && r ≠ 5 && r ≠ 6

/-- The relocation mark is reserved in C and X words (R314). -/
def relocOk (t : Stream) (x : Bool) : Bool :=
  match t with
  | .c => !x
  | .l => true
  | .x => !x
  | .s => true

/-- A bank range stays within `ab63` (R329): first name `d`, count field `a` one less than the count. -/
def bankRangeOk (d a : Field) : Bool := d.toNat + a.toNat + 1 ≤ 64

/-- The policies of SCAT, SCATA and UPD bar code 1 (R414, R452). -/
def scatterPolicyOk (l : BitVec 2) : Bool := l ≠ 1

/-- The operation byte of a Sluice command, W0 [7:0] (R283). -/
def Command.op (c : Command) : BitVec 8 := c.w0.extractLsb' 0 8

/-- A LIMIT selector of a warning threshold: 0x1000 + 0x100 d + j with d below 4 and j below 8 (R287). -/
def thresholdSelector (w : Word) : Bool := w &&& 0xFFFFFFFFFFFFFCF8 == 0x1000

/-- Which row of the opcode table a Sluice command selects, numbered in the table's order; 0 for none (R284, R287, R496, R497). -/
def Command.row (c : Command) : Nat :=
  match c.op.toNat with
  | 0x01 => 1
  | 0x02 => 2
  | 0x03 => 3
  | 0x04 => 4
  | 0x05 => 5
  | 0x06 => 6
  | 0x07 => 7
  | 0x08 => 8
  | 0x09 => match (c.w2.extractLsb' 0 8).toNat with
    | 0x01 => 9
    | 0x02 => 10
    | 0x03 => 11
    | 0x04 => if c.w3.getLsbD 1 then 13 else 12
    | 0x05 => if c.w3.getLsbD 1 then 15 else 14
    | 0x06 => 16
    | 0x07 => 17
    | 0x08 => 18
    | _ => 0
  | 0x0A => if c.w2.getLsbD 0 then 20 else 19
  | 0x0B => 21
  | 0x0C => if c.w2.getLsbD 0 then 23 else 22
  | 0x0D => match (c.w3.extractLsb' 0 2).toNat with
    | 0 => 24
    | 1 => 25
    | 2 => 26
    | _ => 0
  | 0x0E => match (c.w3.extractLsb' 0 2).toNat with
    | 0 => 27
    | 1 => 28
    | 2 => 29
    | _ => 0
  | 0x0F => 30
  | 0x10 => 31
  | 0x11 => 32
  | 0x12 => 33
  | 0x13 => if c.w2.getLsbD 0 then 35 else 34
  | 0x14 => if c.w3.getLsbD 0 then 37 else 36
  | 0x15 => 38
  | 0x16 => 39
  | 0x17 => if c.w2 == 0 then 40 else if c.w2 == 1 then 41
    else if thresholdSelector c.w2 then 42 else 0
  | _ => 0

/-- R305 step 1 for the fields of one row. -/
def Instr.wf : Instr → Bool
  | .bfx _ _ l p => p.toNat + l.toNat + 1 ≤ 64
  | .bfi _ _ l p => p.toNat + l.toNat + 1 ≤ 64
  | .loop a _ => a ≠ 0
  | .amo _ _ _ u w o => !(o == 1 && w) && (!u || o == 2 || o == 3)
  | .fence _ f => f.toNat ≤ 4
  | .arinit t _ _ x => relocOk t x
  | .arwait t _ x _ => relocOk t x
  | .fset t _ _ x => relocOk t x
  | .fclr t _ _ x => relocOk t x
  | .gather _ _ r _ _ => r ≠ 63
  | .gred _ _ r _ _ _ _ => r ≠ 63
  | .cpyt _ _ _ r _ => r ≠ 63
  | .vadd _ _ _ r => roundingOk r
  | .vsub _ _ _ r => roundingOk r
  | .vmul _ _ _ r => roundingOk r
  | .vfma _ _ _ r => roundingOk r
  | .vfms _ _ _ r => roundingOk r
  | .vfnma _ _ _ r => roundingOk r
  | .vcmp _ _ _ _ c => c ≠ 7
  | .vcvt _ _ r => roundingOk r
  | .vredr _ _ o r => o ≠ 3 && reductionRoundingOk r
  | .vredc _ _ o r => o ≠ 3 && reductionRoundingOk r
  | .vscanr _ _ _ o r => o ≠ 3 && reductionRoundingOk r
  | .vscanc _ _ _ o r => o ≠ 3 && reductionRoundingOk r
  | .vrng _ _ g _ f => f ≠ 3 && (f == 0 || g ≠ 63)
  | .vcor d a _ f => !(f == 0 && d == 63) && !((f == 1 || f == 7) && a == 63)
  | .aalloc d a => bankRangeOk d a
  | .afree d a => bankRangeOk d a
  | .azero d a => bankRangeOk d a
  | .tunpk _ _ r => roundingOk r
  | .scat _ _ _ _ l => scatterPolicyOk l
  | .scata _ _ _ _ k l => k ≠ 3 && scatterPolicyOk l
  | .upd _ _ r _ f l => r.toNat ≤ 61 && f ≠ 3 && scatterPolicyOk l
  | .car _ _ r _ => r ≠ 63
  | .crs _ _ r _ => r ≠ 63
  | .cag _ _ r _ => r ≠ 63
  | .cbc _ _ r _ => r ≠ 63
  | .chunkArrive _ slot _ => slot.toNat < 48
  | .chunkFault _ slot => slot.toNat < 48
  | .commandRelocate _ slot _ => slot.toNat < 48
  | .startStepFail _ code _ => code ≠ 0 && code ≠ 0xFF
  | .hostRegisterWrite _ off _ => off ≠ 0x4000 && off ≠ 0x4020
  | .write _ c => c.row == 1
  | .copyin _ c => c.row == 2
  | .read _ c => c.row == 3
  | .copyout _ c => c.row == 4
  | .signal _ c => c.row == 5
  | .launch _ c => c.row == 6
  | .cntw _ c => c.row == 7
  | .csrw _ c => c.row == 8
  | .tablewSpaceRoot _ c => c.row == 9
  | .tablewReplicaSet _ c => c.row == 10
  | .tablewMthr _ c => c.row == 11
  | .tablewFramePoolAdd _ c => c.row == 12
  | .tablewFramePoolRemove _ c => c.row == 13
  | .tablewTablePoolAdd _ c => c.row == 14
  | .tablewTablePoolRemove _ c => c.row == 15
  | .tablewCommunicator _ c => c.row == 16
  | .tablewEndpoint _ c => c.row == 17
  | .tablewSaveBases _ c => c.row == 18
  | .sluiceLend _ c => c.row == 19
  | .sluiceReclaim _ c => c.row == 20
  | .migrate _ c => c.row == 21
  | .preemptGang _ c => c.row == 22
  | .preemptPartition _ c => c.row == 23
  | .bankwGreg _ c => c.row == 24
  | .bankwCsr _ c => c.row == 25
  | .bankwTile _ c => c.row == 26
  | .resumeRetry _ c => c.row == 27
  | .resumeSkip _ c => c.row == 28
  | .resumeEnd _ c => c.row == 29
  | .evread _ c => c.row == 30
  | .snap _ c => c.row == 31
  | .parity _ c => c.row == 32
  | .restore _ c => c.row == 33
  | .rankCreate _ c => c.row == 34
  | .rankEnd _ c => c.row == 35
  | .invalPage _ c => c.row == 36
  | .invalSpace _ c => c.row == 37
  | .swread _ c => c.row == 38
  | .swcopy _ c => c.row == 39
  | .limitPlimit _ c => c.row == 40
  | .limitTlimit _ c => c.row == 41
  | .limitThreshold _ c => c.row == 42
  | .unknownOp _ c => c.row == 0
  | .add .. | .sub .. | .mul .. | .mulh .. | .mulhu .. | .div .. | .divu .. | .rem .. | .remu .. | .and ..
  | .or .. | .xor .. | .shl .. | .shr .. | .sra .. | .slt .. | .sltu .. | .min .. | .max .. | .minu ..
  | .maxu .. | .sel .. | .clz .. | .popc .. | .shli .. | .shri .. | .srai .. | .addi .. | .andi .. | .ori ..
  | .xori .. | .slti .. | .li .. | .lih .. | .b .. | .call .. | .jr .. | .beq .. | .bne .. | .blt ..
  | .bge .. | .bltu .. | .bgeu .. | .csrR .. | .csrW .. | .csrS .. | .csrC .. | .tcfg .. | .rng ..
  | .rngRs .. | .step .. | .yield .. | .exit .. | .trig .. | .gbar .. | .trap .. | .sys .. | .enq ..
  | .lds .. | .sts .. | .ldg .. | .stg .. | .ldgAcq .. | .stgRel .. | .ldfK .. | .ldfC .. | .waitfK ..
  | .waitfC .. | .cas .. | .acq .. | .acqSh .. | .rel .. | .bind .. | .lend .. | .reclaim .. | .tlbi ..
  | .tlbiSp .. | .pgsplit .. | .pgcoll .. | .pgmig .. | .pageProcedureDone .. | .nop .. | .sigk ..
  | .waitk .. | .tld .. | .tldt .. | .tldk .. | .cbld .. | .cpy .. | .tmov .. | .vmin .. | .vmax ..
  | .vabs .. | .vneg .. | .vsel .. | .viadd .. | .visub .. | .vimul .. | .vand .. | .vor .. | .vxor ..
  | .vnot .. | .vshl .. | .vshr .. | .vsra .. | .vmov .. | .vmovG .. | .vbcr .. | .vbcc .. | .vrotr ..
  | .vrotc .. | .viota .. | .vdkadd .. | .vdkapp .. | .mpush .. | .mpushNew .. | .minv .. | .mpop ..
  | .bmz .. | .mlease .. | .mrel .. | .mma .. | .mmag .. | .aadd .. | .adrain .. | .tst .. | .tstk ..
  | .ast .. | .waitkSatisfied .. | .sigkRoom .. | .fullEmptyWaitDone .. | .arwaitDone ..
  | .gbarEpisodeComplete .. | .matrixArrayGrant .. | .leaseLapse .. | .exitRetire .. | .stepBoundary ..
  | .bankUnpark .. | .strandFaultStop .. | .astFinish .. | .nestActivate .. | .gangDispatch ..
  | .gangResume .. | .gangSwitchOut .. | .partitionExchangeDone .. | .segmentBind .. | .peerRequest ..
  | .peerResponse .. | .errorQueuePost .. | .flitForward .. | .requestTimeout .. | .routeEntryLoad ..
  | .linkRetry .. | .cellRequest .. | .cellRelease .. | .cellGrant .. | .hwMigrationDone .. | .lendRequest ..
  | .leaseOffer .. | .offerAnswer .. | .reclaimEvent .. | .pageDemoteDone .. | .returnMessage ..
  | .reclaimDeadline .. | .fenceMessage .. | .packageLost .. | .polderRequest .. | .collectiveMessage ..
  | .collectiveAbort .. | .precopyRound .. | .endpointUpdate .. | .sweepPage .. | .snapshotPageCopy ..
  | .correctedError .. | .thermalTrip .. | .limitEngage .. | .startStepDone .. | .startCold ..
  | .startWarm .. | .stopCold .. | .stopWarm .. | .sqtailDoorbell .. | .cqheadAdvance .. | .i3cWindowRead ..
  | .i3cLimitWrite ..
  | .illegalWord .. => true

end Sys2Proof
end

