-- ==== Sys2Proof/Decode.lean ====
section
/-! DEFINITION. Decoding, written from the formats and opcode maps of R297 to R316, and the encoder beside it.
`decode` is total: a word that no entry defines (R305 step 1) decodes to `none`. -/

namespace Sys2Proof

/-- The stream of a 2-bit tag (R18). -/
def Stream.ofTag (t : BitVec 2) : Stream :=
  if t == 0 then .c else if t == 1 then .l else if t == 2 then .x else .s

/-- The 2-bit tag of a stream (R18). -/
def Stream.tag : Stream → BitVec 2
  | .c => 0
  | .l => 1
  | .x => 2
  | .s => 3

/-- The major opcode, bits [29:24] (R297). -/
def majorOf (w : IWord) : BitVec 6 := w.extractLsb' 24 6

/-- The stream that a word's tag names (R45). -/
def tagOf (w : IWord) : Stream := Stream.ofTag (w.extractLsb' 30 2)

/-- The integer family (R309). -/
def decodeInteger (w : IWord) : Option Instr :=
  let d := w.extractLsb' 18 6
  let a := w.extractLsb' 12 6
  let b := w.extractLsb' 6 6
  match (w.extractLsb' 0 6).toNat with
  | 0x00 => some (.add d a b)
  | 0x01 => some (.sub d a b)
  | 0x02 => some (.mul d a b)
  | 0x03 => some (.mulh d a b)
  | 0x04 => some (.mulhu d a b)
  | 0x05 => some (.div d a b)
  | 0x06 => some (.divu d a b)
  | 0x07 => some (.rem d a b)
  | 0x08 => some (.remu d a b)
  | 0x09 => some (.and d a b)
  | 0x0A => some (.or d a b)
  | 0x0B => some (.xor d a b)
  | 0x0C => some (.shl d a b)
  | 0x0D => some (.shr d a b)
  | 0x0E => some (.sra d a b)
  | 0x0F => some (.slt d a b)
  | 0x10 => some (.sltu d a b)
  | 0x11 => some (.min d a b)
  | 0x12 => some (.max d a b)
  | 0x13 => some (.minu d a b)
  | 0x14 => some (.maxu d a b)
  | 0x15 => some (.sel d a b)
  | 0x16 => if b == 0 then some (.clz d a) else none
  | 0x17 => if b == 0 then some (.popc d a) else none
  | _ => none

/-- The C stream's map (R308, R309). -/
def decodeC (w : IWord) : Option Instr :=
  match (majorOf w).toNat with
  | 0x01 => decodeInteger w
  | 0x02 => if w &&& 0x00003F == 0x000000 then some (.shli (w.extractLsb' 18 6) (w.extractLsb' 12 6) (w.extractLsb' 6 6)) else
      if w &&& 0x00003F == 0x000001 then some (.shri (w.extractLsb' 18 6) (w.extractLsb' 12 6) (w.extractLsb' 6 6)) else
      if w &&& 0x00003F == 0x000002 then some (.srai (w.extractLsb' 18 6) (w.extractLsb' 12 6) (w.extractLsb' 6 6)) else
      none
  | 0x03 => some (.addi (w.extractLsb' 18 6) (w.extractLsb' 12 6) (w.extractLsb' 0 12))
  | 0x04 => some (.andi (w.extractLsb' 18 6) (w.extractLsb' 12 6) (w.extractLsb' 0 12))
  | 0x05 => some (.ori (w.extractLsb' 18 6) (w.extractLsb' 12 6) (w.extractLsb' 0 12))
  | 0x06 => some (.xori (w.extractLsb' 18 6) (w.extractLsb' 12 6) (w.extractLsb' 0 12))
  | 0x07 => some (.slti (w.extractLsb' 18 6) (w.extractLsb' 12 6) (w.extractLsb' 0 12))
  | 0x08 => some (.bfx (w.extractLsb' 18 6) (w.extractLsb' 12 6) (w.extractLsb' 6 6) (w.extractLsb' 0 6))
  | 0x09 => some (.bfi (w.extractLsb' 18 6) (w.extractLsb' 12 6) (w.extractLsb' 6 6) (w.extractLsb' 0 6))
  | 0x0A => some (.li (w.extractLsb' 18 6) (w.extractLsb' 0 18))
  | 0x0B => some (.lih (w.extractLsb' 0 24))
  | 0x0C => some (.b (w.extractLsb' 0 24))
  | 0x0D => some (.call (w.extractLsb' 0 24))
  | 0x0E => if w &&& 0xFC0FFF == 0x000000 then some (.jr (w.extractLsb' 12 6)) else
      none
  | 0x0F => if w &&& 0x03F000 == 0x000000 then some (.loop (w.extractLsb' 18 6) (w.extractLsb' 0 12)) else
      none
  | 0x10 => some (.beq (w.extractLsb' 18 6) (w.extractLsb' 12 6) (w.extractLsb' 0 12))
  | 0x11 => some (.bne (w.extractLsb' 18 6) (w.extractLsb' 12 6) (w.extractLsb' 0 12))
  | 0x12 => some (.blt (w.extractLsb' 18 6) (w.extractLsb' 12 6) (w.extractLsb' 0 12))
  | 0x13 => some (.bge (w.extractLsb' 18 6) (w.extractLsb' 12 6) (w.extractLsb' 0 12))
  | 0x14 => some (.bltu (w.extractLsb' 18 6) (w.extractLsb' 12 6) (w.extractLsb' 0 12))
  | 0x15 => some (.bgeu (w.extractLsb' 18 6) (w.extractLsb' 12 6) (w.extractLsb' 0 12))
  | 0x16 => if w &&& 0x03F000 == 0x000000 then some (.csrR (w.extractLsb' 18 6) (w.extractLsb' 0 12)) else
      none
  | 0x17 => some (.csrW (w.extractLsb' 18 6) (w.extractLsb' 12 6) (w.extractLsb' 0 12))
  | 0x18 => some (.csrS (w.extractLsb' 18 6) (w.extractLsb' 12 6) (w.extractLsb' 0 12))
  | 0x19 => some (.csrC (w.extractLsb' 18 6) (w.extractLsb' 12 6) (w.extractLsb' 0 12))
  | 0x1A => if w &&& 0x000FFF == 0x000000 then some (.tcfg (w.extractLsb' 18 6) (w.extractLsb' 12 6)) else
      none
  | 0x1B => if w &&& 0x00003F == 0x000000 then some (.rng (w.extractLsb' 18 6) (w.extractLsb' 12 6) (w.extractLsb' 6 6)) else
      if w &&& 0x00003F == 0x000001 then some (.rngRs (w.extractLsb' 18 6) (w.extractLsb' 12 6) (w.extractLsb' 6 6)) else
      none
  | 0x1C => if w &&& 0xFFFFFF == 0x000000 then some (.step) else
      if w &&& 0xFFFFFF == 0x000001 then some (.yield) else
      if w &&& 0xFFFFFF == 0x000002 then some (.exit) else
      if w &&& 0xFFFFFF == 0x000003 then some (.trig) else
      if w &&& 0xFFFFFF == 0x000004 then some (.gbar) else
      none
  | 0x1D => some (.trap (w.extractLsb' 0 24))
  | 0x1E => some (.sys (w.extractLsb' 0 24))
  | 0x1F => if w &&& 0x000FFC == 0x000000 then some (.enq (w.extractLsb' 18 6) (w.extractLsb' 12 6) (w.extractLsb' 0 2)) else
      none
  | 0x20 => some (.lds (w.extractLsb' 18 6) (w.extractLsb' 12 6) (w.extractLsb' 10 2) (w.extractLsb' 0 10))
  | 0x21 => some (.sts (w.extractLsb' 18 6) (w.extractLsb' 12 6) (w.extractLsb' 10 2) (w.extractLsb' 0 10))
  | 0x22 => some (.ldg (w.extractLsb' 18 6) (w.extractLsb' 12 6) (w.extractLsb' 10 2) (w.extractLsb' 0 10))
  | 0x23 => some (.stg (w.extractLsb' 18 6) (w.extractLsb' 12 6) (w.extractLsb' 10 2) (w.extractLsb' 0 10))
  | 0x24 => if w &&& 0x000C00 == 0x000C00 then some (.ldgAcq (w.extractLsb' 18 6) (w.extractLsb' 12 6) (w.extractLsb' 0 10)) else
      none
  | 0x25 => if w &&& 0x000C00 == 0x000C00 then some (.stgRel (w.extractLsb' 18 6) (w.extractLsb' 12 6) (w.extractLsb' 0 10)) else
      none
  | 0x26 => some (.ldfK (w.extractLsb' 18 6) (w.extractLsb' 12 6) (w.extractLsb' 10 2) (w.extractLsb' 0 10))
  | 0x27 => some (.ldfC (w.extractLsb' 18 6) (w.extractLsb' 12 6) (w.extractLsb' 10 2) (w.extractLsb' 0 10))
  | 0x28 => if w &&& 0x000FFF == 0x000000 then some (.waitfK (w.extractLsb' 18 6) (w.extractLsb' 12 6)) else
      if w &&& 0x000FFF == 0x000001 then some (.waitfC (w.extractLsb' 18 6) (w.extractLsb' 12 6)) else
      none
  | 0x29 => if w &&& 0x000020 == 0x000000 then some (.amo (w.extractLsb' 18 6) (w.extractLsb' 12 6) (w.extractLsb' 6 6) (w.getLsbD 4) (w.getLsbD 3) (w.extractLsb' 0 3)) else
      none
  | 0x2A => if w &&& 0x000037 == 0x000000 then some (.cas (w.extractLsb' 18 6) (w.extractLsb' 12 6) (w.extractLsb' 6 6) (w.getLsbD 3)) else
      none
  | 0x2B => if w &&& 0x03FFFF == 0x000000 then some (.acq (w.extractLsb' 18 6)) else
      if w &&& 0x03FFFF == 0x000001 then some (.acqSh (w.extractLsb' 18 6)) else
      none
  | 0x2C => if w &&& 0x03FFFF == 0x000000 then some (.rel (w.extractLsb' 18 6)) else
      none
  | 0x2D => some (.bind (w.extractLsb' 18 6) (w.extractLsb' 12 6) (w.extractLsb' 6 6) (w.extractLsb' 0 6))
  | 0x2E => if w &&& 0x000FFF == 0x000000 then some (.lend (w.extractLsb' 18 6) (w.extractLsb' 12 6)) else
      none
  | 0x2F => if w &&& 0x000FFF == 0x000000 then some (.reclaim (w.extractLsb' 18 6) (w.extractLsb' 12 6)) else
      none
  | 0x30 => if w &&& 0x03FFFF == 0x000000 then some (.tlbi (w.extractLsb' 18 6)) else
      if w &&& 0x03FFFF == 0x000001 then some (.tlbiSp (w.extractLsb' 18 6)) else
      none
  | 0x31 => if w &&& 0x000FFF == 0x000000 then some (.pgsplit (w.extractLsb' 18 6) (w.extractLsb' 12 6)) else
      none
  | 0x32 => if w &&& 0x00003F == 0x000000 then some (.pgcoll (w.extractLsb' 18 6) (w.extractLsb' 12 6) (w.extractLsb' 6 6)) else
      none
  | 0x33 => if w &&& 0x00003F == 0x000000 then some (.pgmig (w.extractLsb' 18 6) (w.extractLsb' 12 6) (w.extractLsb' 6 6)) else
      none
  | _ => none

/-- The L stream's map (R310). -/
def decodeL (w : IWord) : Option Instr :=
  match (majorOf w).toNat with
  | 0x01 => some (.tld (w.extractLsb' 18 6) (w.extractLsb' 12 6) (w.extractLsb' 0 12))
  | 0x02 => some (.tldt (w.extractLsb' 18 6) (w.extractLsb' 12 6) (w.extractLsb' 0 12))
  | 0x03 => some (.tldk (w.extractLsb' 18 6) (w.extractLsb' 12 6) (w.extractLsb' 0 12))
  | 0x04 => if w &&& 0xFC0000 == 0x000000 then some (.cbld (w.extractLsb' 12 6) (w.extractLsb' 0 12)) else
      none
  | 0x05 => if w &&& 0x00001C == 0x000000 then some (.gather (w.extractLsb' 18 6) (w.extractLsb' 12 6) (w.extractLsb' 6 6) (w.getLsbD 5) (w.extractLsb' 0 2)) else
      none
  | 0x06 => if w &&& 0x000010 == 0x000000 then some (.gred (w.extractLsb' 18 6) (w.extractLsb' 12 6) (w.extractLsb' 6 6) (w.getLsbD 5) (w.extractLsb' 2 2) (w.getLsbD 1) (w.getLsbD 0)) else
      none
  | 0x30 => if w &&& 0x00001F == 0x000000 then some (.cpy (w.getLsbD 31) (w.extractLsb' 18 6) (w.extractLsb' 12 6) (w.extractLsb' 6 6) (w.getLsbD 5)) else
      none
  | 0x31 => if w &&& 0x00001F == 0x000000 then some (.cpyt (w.getLsbD 31) (w.extractLsb' 18 6) (w.extractLsb' 12 6) (w.extractLsb' 6 6) (w.getLsbD 5)) else
      none
  | 0x32 => if w &&& 0x000FDF == 0x000000 then some (.tmov (w.getLsbD 31) (w.extractLsb' 18 6) (w.extractLsb' 12 6) (w.getLsbD 5)) else
      none
  | _ => none

/-- The X stream's map (R311). -/
def decodeX (w : IWord) : Option Instr :=
  match (majorOf w).toNat with
  | 0x01 => if w &&& 0x000038 == 0x000000 then some (.vadd (w.extractLsb' 18 6) (w.extractLsb' 12 6) (w.extractLsb' 6 6) (w.extractLsb' 0 3)) else
      none
  | 0x02 => if w &&& 0x000038 == 0x000000 then some (.vsub (w.extractLsb' 18 6) (w.extractLsb' 12 6) (w.extractLsb' 6 6) (w.extractLsb' 0 3)) else
      none
  | 0x03 => if w &&& 0x000038 == 0x000000 then some (.vmul (w.extractLsb' 18 6) (w.extractLsb' 12 6) (w.extractLsb' 6 6) (w.extractLsb' 0 3)) else
      none
  | 0x04 => if w &&& 0x000038 == 0x000000 then some (.vfma (w.extractLsb' 18 6) (w.extractLsb' 12 6) (w.extractLsb' 6 6) (w.extractLsb' 0 3)) else
      none
  | 0x05 => if w &&& 0x000038 == 0x000000 then some (.vfms (w.extractLsb' 18 6) (w.extractLsb' 12 6) (w.extractLsb' 6 6) (w.extractLsb' 0 3)) else
      none
  | 0x06 => if w &&& 0x000038 == 0x000000 then some (.vfnma (w.extractLsb' 18 6) (w.extractLsb' 12 6) (w.extractLsb' 6 6) (w.extractLsb' 0 3)) else
      none
  | 0x07 => if w &&& 0x00003C == 0x000000 then some (.vmin (w.extractLsb' 18 6) (w.extractLsb' 12 6) (w.extractLsb' 6 6) (w.getLsbD 1) (w.getLsbD 0)) else
      none
  | 0x08 => if w &&& 0x00003C == 0x000000 then some (.vmax (w.extractLsb' 18 6) (w.extractLsb' 12 6) (w.extractLsb' 6 6) (w.getLsbD 1) (w.getLsbD 0)) else
      none
  | 0x09 => if w &&& 0x000FFF == 0x000000 then some (.vabs (w.extractLsb' 18 6) (w.extractLsb' 12 6)) else
      none
  | 0x0A => if w &&& 0x000FFF == 0x000000 then some (.vneg (w.extractLsb' 18 6) (w.extractLsb' 12 6)) else
      none
  | 0x0B => if w &&& 0x000030 == 0x000000 then some (.vcmp (w.extractLsb' 18 6) (w.extractLsb' 12 6) (w.extractLsb' 6 6) (w.getLsbD 3) (w.extractLsb' 0 3)) else
      none
  | 0x0C => if w &&& 0x00003F == 0x000000 then some (.vsel (w.extractLsb' 18 6) (w.extractLsb' 12 6) (w.extractLsb' 6 6)) else
      none
  | 0x0D => if w &&& 0x000FF8 == 0x000000 then some (.vcvt (w.extractLsb' 18 6) (w.extractLsb' 12 6) (w.extractLsb' 0 3)) else
      none
  | 0x0E => if w &&& 0x00003E == 0x000000 then some (.viadd (w.extractLsb' 18 6) (w.extractLsb' 12 6) (w.extractLsb' 6 6) (w.getLsbD 0)) else
      none
  | 0x0F => if w &&& 0x00003E == 0x000000 then some (.visub (w.extractLsb' 18 6) (w.extractLsb' 12 6) (w.extractLsb' 6 6) (w.getLsbD 0)) else
      none
  | 0x10 => if w &&& 0x00003E == 0x000000 then some (.vimul (w.extractLsb' 18 6) (w.extractLsb' 12 6) (w.extractLsb' 6 6) (w.getLsbD 0)) else
      none
  | 0x11 => if w &&& 0x00003F == 0x000000 then some (.vand (w.extractLsb' 18 6) (w.extractLsb' 12 6) (w.extractLsb' 6 6)) else
      none
  | 0x12 => if w &&& 0x00003F == 0x000000 then some (.vor (w.extractLsb' 18 6) (w.extractLsb' 12 6) (w.extractLsb' 6 6)) else
      none
  | 0x13 => if w &&& 0x00003F == 0x000000 then some (.vxor (w.extractLsb' 18 6) (w.extractLsb' 12 6) (w.extractLsb' 6 6)) else
      none
  | 0x14 => if w &&& 0x000FFF == 0x000000 then some (.vnot (w.extractLsb' 18 6) (w.extractLsb' 12 6)) else
      none
  | 0x15 => if w &&& 0x00003E == 0x000000 then some (.vshl (w.extractLsb' 18 6) (w.extractLsb' 12 6) (w.extractLsb' 6 6) (w.getLsbD 0)) else
      none
  | 0x16 => if w &&& 0x00003E == 0x000000 then some (.vshr (w.extractLsb' 18 6) (w.extractLsb' 12 6) (w.extractLsb' 6 6) (w.getLsbD 0)) else
      none
  | 0x17 => if w &&& 0x00003E == 0x000000 then some (.vsra (w.extractLsb' 18 6) (w.extractLsb' 12 6) (w.extractLsb' 6 6) (w.getLsbD 0)) else
      none
  | 0x18 => if w &&& 0x000FFF == 0x000000 then some (.vmov (w.extractLsb' 18 6) (w.extractLsb' 12 6)) else
      if w &&& 0x000FFF == 0x000001 then some (.vmovG (w.extractLsb' 18 6) (w.extractLsb' 12 6)) else
      none
  | 0x19 => if w &&& 0x00003F == 0x000000 then some (.vbcr (w.extractLsb' 18 6) (w.extractLsb' 12 6) (w.extractLsb' 6 6)) else
      none
  | 0x1A => if w &&& 0x000C3F == 0x000000 then some (.vbcc (w.extractLsb' 18 6) (w.extractLsb' 12 6) (w.extractLsb' 6 4)) else
      none
  | 0x1B => if w &&& 0x00003F == 0x000000 then some (.vrotr (w.extractLsb' 18 6) (w.extractLsb' 12 6) (w.extractLsb' 6 6)) else
      none
  | 0x1C => if w &&& 0x000C3F == 0x000000 then some (.vrotc (w.extractLsb' 18 6) (w.extractLsb' 12 6) (w.extractLsb' 6 4)) else
      none
  | 0x1D => if w &&& 0x000FE0 == 0x000000 then some (.vredr (w.extractLsb' 18 6) (w.extractLsb' 12 6) (w.extractLsb' 3 2) (w.extractLsb' 0 3)) else
      none
  | 0x1E => if w &&& 0x000FE0 == 0x000000 then some (.vredc (w.extractLsb' 18 6) (w.extractLsb' 12 6) (w.extractLsb' 3 2) (w.extractLsb' 0 3)) else
      none
  | 0x1F => if w &&& 0x000FC0 == 0x000000 then some (.vscanr (w.extractLsb' 18 6) (w.extractLsb' 12 6) (w.getLsbD 5) (w.extractLsb' 3 2) (w.extractLsb' 0 3)) else
      none
  | 0x20 => if w &&& 0x000FC0 == 0x000000 then some (.vscanc (w.extractLsb' 18 6) (w.extractLsb' 12 6) (w.getLsbD 5) (w.extractLsb' 3 2) (w.extractLsb' 0 3)) else
      none
  | 0x21 => if w &&& 0x000FFF == 0x000000 then some (.viota (w.extractLsb' 18 6) (w.extractLsb' 12 6)) else
      none
  | 0x22 => if w &&& 0x000038 == 0x000000 then some (.vrng (w.extractLsb' 18 6) (w.extractLsb' 12 6) (w.extractLsb' 6 6) (w.getLsbD 2) (w.extractLsb' 0 2)) else
      none
  | 0x23 => if w &&& 0x000838 == 0x000000 then some (.vcor (w.extractLsb' 18 6) (w.extractLsb' 12 6) (w.extractLsb' 6 5) (w.extractLsb' 0 3)) else
      none
  | 0x24 => if w &&& 0x00003F == 0x000000 then some (.vdkadd (w.extractLsb' 18 6) (w.extractLsb' 12 6) (w.extractLsb' 6 6)) else
      none
  | 0x25 => if w &&& 0x000FFF == 0x000000 then some (.vdkapp (w.extractLsb' 18 6) (w.extractLsb' 12 6)) else
      none
  | 0x26 => if w &&& 0xFC0FFF == 0x000000 then some (.mpush (w.extractLsb' 12 6)) else
      if w &&& 0xFC0FFF == 0x000001 then some (.mpushNew (w.extractLsb' 12 6)) else
      none
  | 0x27 => if w &&& 0xFFFFFF == 0x000000 then some (.minv) else
      none
  | 0x28 => if w &&& 0xFFFFFF == 0x000000 then some (.mpop) else
      none
  | 0x29 => if w &&& 0xFFF000 == 0x000000 then some (.bmz (w.extractLsb' 0 12)) else
      none
  | 0x2A => if w &&& 0xFFFFFF == 0x000000 then some (.mlease) else
      none
  | 0x2B => if w &&& 0xFFFFFF == 0x000000 then some (.mrel) else
      none
  | 0x2C => if w &&& 0x00003F == 0x000000 then some (.mma (w.extractLsb' 18 6) (w.extractLsb' 12 6) (w.extractLsb' 6 6)) else
      none
  | 0x2D => if w &&& 0x00003F == 0x000000 then some (.mmag (w.extractLsb' 18 6) (w.extractLsb' 12 6) (w.extractLsb' 6 6)) else
      none
  | 0x2E => if w &&& 0x000FFF == 0x000000 then some (.aalloc (w.extractLsb' 18 6) (w.extractLsb' 12 6)) else
      none
  | 0x2F => if w &&& 0x000FFF == 0x000000 then some (.afree (w.extractLsb' 18 6) (w.extractLsb' 12 6)) else
      none
  | 0x30 => if w &&& 0x000FFF == 0x000000 then some (.azero (w.extractLsb' 18 6) (w.extractLsb' 12 6)) else
      none
  | 0x31 => if w &&& 0x000FFF == 0x000000 then some (.aadd (w.extractLsb' 18 6) (w.extractLsb' 12 6)) else
      none
  | 0x32 => if w &&& 0x000FFF == 0x000000 then some (.adrain (w.extractLsb' 18 6) (w.extractLsb' 12 6)) else
      none
  | 0x33 => if w &&& 0x000FF8 == 0x000000 then some (.tunpk (w.extractLsb' 18 6) (w.extractLsb' 12 6) (w.extractLsb' 0 3)) else
      none
  | _ => none

/-- The S stream's map (R312). -/
def decodeS (w : IWord) : Option Instr :=
  match (majorOf w).toNat with
  | 0x01 => some (.tst (w.extractLsb' 18 6) (w.extractLsb' 12 6) (w.extractLsb' 0 12))
  | 0x02 => some (.tstk (w.extractLsb' 18 6) (w.extractLsb' 12 6) (w.extractLsb' 0 12))
  | 0x03 => if w &&& 0x000FDF == 0x000000 then some (.ast (w.extractLsb' 18 6) (w.extractLsb' 12 6) (w.getLsbD 5)) else
      none
  | 0x04 => if w &&& 0x00001C == 0x000000 then some (.scat (w.extractLsb' 18 6) (w.extractLsb' 12 6) (w.extractLsb' 6 6) (w.getLsbD 5) (w.extractLsb' 0 2)) else
      none
  | 0x05 => if w &&& 0x000010 == 0x000000 then some (.scata (w.extractLsb' 18 6) (w.extractLsb' 12 6) (w.extractLsb' 6 6) (w.getLsbD 5) (w.extractLsb' 2 2) (w.extractLsb' 0 2)) else
      none
  | 0x06 => if w &&& 0x000010 == 0x000000 then some (.upd (w.extractLsb' 18 6) (w.extractLsb' 12 6) (w.extractLsb' 6 6) (w.getLsbD 5) (w.extractLsb' 2 2) (w.extractLsb' 0 2)) else
      none
  | 0x08 => if w &&& 0x00001F == 0x000000 then some (.car (w.extractLsb' 18 6) (w.extractLsb' 12 6) (w.extractLsb' 6 6) (w.getLsbD 5)) else
      none
  | 0x09 => if w &&& 0x00001F == 0x000000 then some (.crs (w.extractLsb' 18 6) (w.extractLsb' 12 6) (w.extractLsb' 6 6) (w.getLsbD 5)) else
      none
  | 0x0A => if w &&& 0x00001F == 0x000000 then some (.cag (w.extractLsb' 18 6) (w.extractLsb' 12 6) (w.extractLsb' 6 6) (w.getLsbD 5)) else
      none
  | 0x0B => if w &&& 0x00001F == 0x000000 then some (.cbc (w.extractLsb' 18 6) (w.extractLsb' 12 6) (w.extractLsb' 6 6) (w.getLsbD 5)) else
      none
  | 0x30 => if w &&& 0x00001F == 0x000000 then some (.cpy (w.getLsbD 31) (w.extractLsb' 18 6) (w.extractLsb' 12 6) (w.extractLsb' 6 6) (w.getLsbD 5)) else
      none
  | 0x31 => if w &&& 0x00001F == 0x000000 then some (.cpyt (w.getLsbD 31) (w.extractLsb' 18 6) (w.extractLsb' 12 6) (w.extractLsb' 6 6) (w.getLsbD 5)) else
      none
  | 0x32 => if w &&& 0x000FDF == 0x000000 then some (.tmov (w.getLsbD 31) (w.extractLsb' 18 6) (w.extractLsb' 12 6) (w.getLsbD 5)) else
      none
  | _ => none

/-- The common block, which every stream decodes alike (R307). -/
def decodeCommon (w : IWord) : Option Instr :=
  match (majorOf w).toNat with
  | 0x38 => if w &&& 0xFFFFFF == 0x000000 then some (.nop (Stream.ofTag (w.extractLsb' 30 2))) else
      none
  | 0x39 => if w &&& 0xFFFFC0 == 0x000000 then some (.fence (Stream.ofTag (w.extractLsb' 30 2)) (w.extractLsb' 0 6)) else
      none
  | 0x3A => if w &&& 0xC30000 == 0x000000 then some (.sigk (Stream.ofTag (w.extractLsb' 30 2)) (w.extractLsb' 18 4) (w.extractLsb' 0 16)) else
      none
  | 0x3B => if w &&& 0xC30000 == 0x000000 then some (.waitk (Stream.ofTag (w.extractLsb' 30 2)) (w.extractLsb' 18 4) (w.extractLsb' 0 16)) else
      none
  | 0x3C => if w &&& 0x000FDF == 0x000000 then some (.arinit (Stream.ofTag (w.extractLsb' 30 2)) (w.extractLsb' 18 6) (w.extractLsb' 12 6) (w.getLsbD 5)) else
      none
  | 0x3D => if w &&& 0x03FFDE == 0x000000 then some (.arwait (Stream.ofTag (w.extractLsb' 30 2)) (w.extractLsb' 18 6) (w.getLsbD 5) (w.getLsbD 0)) else
      none
  | 0x3E => if w &&& 0x000FDF == 0x000000 then some (.fset (Stream.ofTag (w.extractLsb' 30 2)) (w.extractLsb' 18 6) (w.extractLsb' 12 6) (w.getLsbD 5)) else
      none
  | 0x3F => if w &&& 0x000FDF == 0x000000 then some (.fclr (Stream.ofTag (w.extractLsb' 30 2)) (w.extractLsb' 18 6) (w.extractLsb' 12 6) (w.getLsbD 5)) else
      none
  | _ => none

/-- The fields of a word by its tag and major, before the conditions between fields. -/
def decodeFields (w : IWord) : Option Instr :=
  if 0x38 ≤ (majorOf w).toNat then decodeCommon w
  else match tagOf w with
    | .c => decodeC w
    | .l => decodeL w
    | .x => decodeX w
    | .s => decodeS w

/-- R305 step 1: the instruction a word is, or `none` for a word that is ILLEGAL whatever the state. -/
def decode (w : IWord) : Option Instr :=
  match decodeFields w with
  | some i => if i.wf then some i else none
  | none => none

/-- The row that a Sluice command selects (R284, R287, R496, R497). Total: the rest is `unknownOp`. -/
def decodeCommand (p : Pkg) (c : Command) : Instr :=
  match c.row with
  | 1 => .write p c
  | 2 => .copyin p c
  | 3 => .read p c
  | 4 => .copyout p c
  | 5 => .signal p c
  | 6 => .launch p c
  | 7 => .cntw p c
  | 8 => .csrw p c
  | 9 => .tablewSpaceRoot p c
  | 10 => .tablewReplicaSet p c
  | 11 => .tablewMthr p c
  | 12 => .tablewFramePoolAdd p c
  | 13 => .tablewFramePoolRemove p c
  | 14 => .tablewTablePoolAdd p c
  | 15 => .tablewTablePoolRemove p c
  | 16 => .tablewCommunicator p c
  | 17 => .tablewEndpoint p c
  | 18 => .tablewSaveBases p c
  | 19 => .sluiceLend p c
  | 20 => .sluiceReclaim p c
  | 21 => .migrate p c
  | 22 => .preemptGang p c
  | 23 => .preemptPartition p c
  | 24 => .bankwGreg p c
  | 25 => .bankwCsr p c
  | 26 => .bankwTile p c
  | 27 => .resumeRetry p c
  | 28 => .resumeSkip p c
  | 29 => .resumeEnd p c
  | 30 => .evread p c
  | 31 => .snap p c
  | 32 => .parity p c
  | 33 => .restore p c
  | 34 => .rankCreate p c
  | 35 => .rankEnd p c
  | 36 => .invalPage p c
  | 37 => .invalSpace p c
  | 38 => .swread p c
  | 39 => .swcopy p c
  | 40 => .limitPlimit p c
  | 41 => .limitTlimit p c
  | 42 => .limitThreshold p c
  | _ => .unknownOp p c

/-- The word of an instruction, from the same formats; empty for a row that has no word. -/
def encode : Instr → List IWord
  | .add d a b => [1#8 ++ d ++ a ++ b ++ 0#6]
  | .sub d a b => [1#8 ++ d ++ a ++ b ++ 1#6]
  | .mul d a b => [1#8 ++ d ++ a ++ b ++ 2#6]
  | .mulh d a b => [1#8 ++ d ++ a ++ b ++ 3#6]
  | .mulhu d a b => [1#8 ++ d ++ a ++ b ++ 4#6]
  | .div d a b => [1#8 ++ d ++ a ++ b ++ 5#6]
  | .divu d a b => [1#8 ++ d ++ a ++ b ++ 6#6]
  | .rem d a b => [1#8 ++ d ++ a ++ b ++ 7#6]
  | .remu d a b => [1#8 ++ d ++ a ++ b ++ 8#6]
  | .and d a b => [1#8 ++ d ++ a ++ b ++ 9#6]
  | .or d a b => [1#8 ++ d ++ a ++ b ++ 10#6]
  | .xor d a b => [1#8 ++ d ++ a ++ b ++ 11#6]
  | .shl d a b => [1#8 ++ d ++ a ++ b ++ 12#6]
  | .shr d a b => [1#8 ++ d ++ a ++ b ++ 13#6]
  | .sra d a b => [1#8 ++ d ++ a ++ b ++ 14#6]
  | .slt d a b => [1#8 ++ d ++ a ++ b ++ 15#6]
  | .sltu d a b => [1#8 ++ d ++ a ++ b ++ 16#6]
  | .min d a b => [1#8 ++ d ++ a ++ b ++ 17#6]
  | .max d a b => [1#8 ++ d ++ a ++ b ++ 18#6]
  | .minu d a b => [1#8 ++ d ++ a ++ b ++ 19#6]
  | .maxu d a b => [1#8 ++ d ++ a ++ b ++ 20#6]
  | .sel d a b => [1#8 ++ d ++ a ++ b ++ 21#6]
  | .clz d a => [1#8 ++ d ++ a ++ 22#12]
  | .popc d a => [1#8 ++ d ++ a ++ 23#12]
  | .shli d a b => [2#8 ++ d ++ a ++ b ++ 0#6]
  | .shri d a b => [2#8 ++ d ++ a ++ b ++ 1#6]
  | .srai d a b => [2#8 ++ d ++ a ++ b ++ 2#6]
  | .addi d a i => [3#8 ++ d ++ a ++ i]
  | .andi d a i => [4#8 ++ d ++ a ++ i]
  | .ori d a i => [5#8 ++ d ++ a ++ i]
  | .xori d a i => [6#8 ++ d ++ a ++ i]
  | .slti d a i => [7#8 ++ d ++ a ++ i]
  | .bfx d a l p => [8#8 ++ d ++ a ++ l ++ p]
  | .bfi d a l p => [9#8 ++ d ++ a ++ l ++ p]
  | .li d i => [10#8 ++ d ++ i]
  | .lih i => [11#8 ++ i]
  | .b o => [12#8 ++ o]
  | .call o => [13#8 ++ o]
  | .jr a => [14#8 ++ 0#6 ++ a ++ 0#12]
  | .loop a o => [15#8 ++ a ++ 0#6 ++ o]
  | .beq a b o => [16#8 ++ a ++ b ++ o]
  | .bne a b o => [17#8 ++ a ++ b ++ o]
  | .blt a b o => [18#8 ++ a ++ b ++ o]
  | .bge a b o => [19#8 ++ a ++ b ++ o]
  | .bltu a b o => [20#8 ++ a ++ b ++ o]
  | .bgeu a b o => [21#8 ++ a ++ b ++ o]
  | .csrR d c => [22#8 ++ d ++ 0#6 ++ c]
  | .csrW d a c => [23#8 ++ d ++ a ++ c]
  | .csrS d a c => [24#8 ++ d ++ a ++ c]
  | .csrC d a c => [25#8 ++ d ++ a ++ c]
  | .tcfg n a => [26#8 ++ n ++ a ++ 0#12]
  | .rng d a b => [27#8 ++ d ++ a ++ b ++ 0#6]
  | .rngRs d a b => [27#8 ++ d ++ a ++ b ++ 1#6]
  | .step => [28#8 ++ 0#24]
  | .yield => [28#8 ++ 1#24]
  | .exit => [28#8 ++ 2#24]
  | .trig => [28#8 ++ 3#24]
  | .gbar => [28#8 ++ 4#24]
  | .trap c => [29#8 ++ c]
  | .sys c => [30#8 ++ c]
  | .enq d q n => [31#8 ++ d ++ q ++ 0#10 ++ n]
  | .lds d a s o => [32#8 ++ d ++ a ++ s ++ o]
  | .sts d a s o => [33#8 ++ d ++ a ++ s ++ o]
  | .ldg d a s o => [34#8 ++ d ++ a ++ s ++ o]
  | .stg d a s o => [35#8 ++ d ++ a ++ s ++ o]
  | .ldgAcq d a o => [36#8 ++ d ++ a ++ 3#2 ++ o]
  | .stgRel d a o => [37#8 ++ d ++ a ++ 3#2 ++ o]
  | .ldfK d a s o => [38#8 ++ d ++ a ++ s ++ o]
  | .ldfC d a s o => [39#8 ++ d ++ a ++ s ++ o]
  | .waitfK p q => [40#8 ++ p ++ q ++ 0#12]
  | .waitfC p q => [40#8 ++ p ++ q ++ 1#12]
  | .amo d a b u w o => [41#8 ++ d ++ a ++ b ++ 0#1 ++ BitVec.ofBool u ++ BitVec.ofBool w ++ o]
  | .cas d a b w => [42#8 ++ d ++ a ++ b ++ 0#2 ++ BitVec.ofBool w ++ 0#3]
  | .acq p => [43#8 ++ p ++ 0#18]
  | .acqSh p => [43#8 ++ p ++ 1#18]
  | .rel p => [44#8 ++ p ++ 0#18]
  | .bind p q r e => [45#8 ++ p ++ q ++ r ++ e]
  | .lend d q => [46#8 ++ d ++ q ++ 0#12]
  | .reclaim d q => [47#8 ++ d ++ q ++ 0#12]
  | .tlbi p => [48#8 ++ p ++ 0#18]
  | .tlbiSp p => [48#8 ++ p ++ 1#18]
  | .pgsplit d a => [49#8 ++ d ++ a ++ 0#12]
  | .pgcoll d a b => [50#8 ++ d ++ a ++ b ++ 0#6]
  | .pgmig d a b => [51#8 ++ d ++ a ++ b ++ 0#6]
  | .nop t => [t.tag ++ 56#6 ++ 0#24]
  | .fence t f => [t.tag ++ 57#6 ++ 0#18 ++ f]
  | .sigk t k n => [t.tag ++ 58#6 ++ 0#2 ++ k ++ 0#2 ++ n]
  | .waitk t k n => [t.tag ++ 59#6 ++ 0#2 ++ k ++ 0#2 ++ n]
  | .arinit t p q x => [t.tag ++ 60#6 ++ p ++ q ++ 0#6 ++ BitVec.ofBool x ++ 0#5]
  | .arwait t p x h => [t.tag ++ 61#6 ++ p ++ 0#12 ++ BitVec.ofBool x ++ 0#4 ++ BitVec.ofBool h]
  | .fset t p q x => [t.tag ++ 62#6 ++ p ++ q ++ 0#6 ++ BitVec.ofBool x ++ 0#5]
  | .fclr t p q x => [t.tag ++ 63#6 ++ p ++ q ++ 0#6 ++ BitVec.ofBool x ++ 0#5]
  | .tld n b o => [65#8 ++ n ++ b ++ o]
  | .tldt n b o => [66#8 ++ n ++ b ++ o]
  | .tldk n b o => [67#8 ++ n ++ b ++ o]
  | .cbld b o => [68#8 ++ 0#6 ++ b ++ o]
  | .gather p q r x l => [69#8 ++ p ++ q ++ r ++ BitVec.ofBool x ++ 0#3 ++ l]
  | .gred p q r x l f o => [70#8 ++ p ++ q ++ r ++ BitVec.ofBool x ++ 0#1 ++ l ++ BitVec.ofBool f ++ BitVec.ofBool o]
  | .cpy s p q r x => [BitVec.ofBool s ++ 112#7 ++ p ++ q ++ r ++ BitVec.ofBool x ++ 0#5]
  | .cpyt s p q r x => [BitVec.ofBool s ++ 113#7 ++ p ++ q ++ r ++ BitVec.ofBool x ++ 0#5]
  | .tmov s p q x => [BitVec.ofBool s ++ 114#7 ++ p ++ q ++ 0#6 ++ BitVec.ofBool x ++ 0#5]
  | .vadd d a b r => [129#8 ++ d ++ a ++ b ++ 0#3 ++ r]
  | .vsub d a b r => [130#8 ++ d ++ a ++ b ++ 0#3 ++ r]
  | .vmul d a b r => [131#8 ++ d ++ a ++ b ++ 0#3 ++ r]
  | .vfma d a b r => [132#8 ++ d ++ a ++ b ++ 0#3 ++ r]
  | .vfms d a b r => [133#8 ++ d ++ a ++ b ++ 0#3 ++ r]
  | .vfnma d a b r => [134#8 ++ d ++ a ++ b ++ 0#3 ++ r]
  | .vmin d a b u q => [135#8 ++ d ++ a ++ b ++ 0#4 ++ BitVec.ofBool u ++ BitVec.ofBool q]
  | .vmax d a b u q => [136#8 ++ d ++ a ++ b ++ 0#4 ++ BitVec.ofBool u ++ BitVec.ofBool q]
  | .vabs d a => [137#8 ++ d ++ a ++ 0#12]
  | .vneg d a => [138#8 ++ d ++ a ++ 0#12]
  | .vcmp d a b u c => [139#8 ++ d ++ a ++ b ++ 0#2 ++ BitVec.ofBool u ++ c]
  | .vsel d a b => [140#8 ++ d ++ a ++ b ++ 0#6]
  | .vcvt d a r => [141#8 ++ d ++ a ++ 0#9 ++ r]
  | .viadd d a b s => [142#8 ++ d ++ a ++ b ++ 0#5 ++ BitVec.ofBool s]
  | .visub d a b s => [143#8 ++ d ++ a ++ b ++ 0#5 ++ BitVec.ofBool s]
  | .vimul d a b s => [144#8 ++ d ++ a ++ b ++ 0#5 ++ BitVec.ofBool s]
  | .vand d a b => [145#8 ++ d ++ a ++ b ++ 0#6]
  | .vor d a b => [146#8 ++ d ++ a ++ b ++ 0#6]
  | .vxor d a b => [147#8 ++ d ++ a ++ b ++ 0#6]
  | .vnot d a => [148#8 ++ d ++ a ++ 0#12]
  | .vshl d a b i => [149#8 ++ d ++ a ++ b ++ 0#5 ++ BitVec.ofBool i]
  | .vshr d a b i => [150#8 ++ d ++ a ++ b ++ 0#5 ++ BitVec.ofBool i]
  | .vsra d a b i => [151#8 ++ d ++ a ++ b ++ 0#5 ++ BitVec.ofBool i]
  | .vmov d a => [152#8 ++ d ++ a ++ 0#12]
  | .vmovG d a => [152#8 ++ d ++ a ++ 1#12]
  | .vbcr d a c => [153#8 ++ d ++ a ++ c ++ 0#6]
  | .vbcc d a r => [154#8 ++ d ++ a ++ 0#2 ++ r ++ 0#6]
  | .vrotr d a s => [155#8 ++ d ++ a ++ s ++ 0#6]
  | .vrotc d a s => [156#8 ++ d ++ a ++ 0#2 ++ s ++ 0#6]
  | .vredr d a o r => [157#8 ++ d ++ a ++ 0#7 ++ o ++ r]
  | .vredc d a o r => [158#8 ++ d ++ a ++ 0#7 ++ o ++ r]
  | .vscanr d a x o r => [159#8 ++ d ++ a ++ 0#6 ++ BitVec.ofBool x ++ o ++ r]
  | .vscanc d a x o r => [160#8 ++ d ++ a ++ 0#6 ++ BitVec.ofBool x ++ o ++ r]
  | .viota d a => [161#8 ++ d ++ a ++ 0#12]
  | .vrng d a b s f => [162#8 ++ d ++ a ++ b ++ 0#3 ++ BitVec.ofBool s ++ f]
  | .vcor d a i f => [163#8 ++ d ++ a ++ 0#1 ++ i ++ 0#3 ++ f]
  | .vdkadd d a b => [164#8 ++ d ++ a ++ b ++ 0#6]
  | .vdkapp d a => [165#8 ++ d ++ a ++ 0#12]
  | .mpush a => [166#8 ++ 0#6 ++ a ++ 0#12]
  | .mpushNew a => [166#8 ++ 0#6 ++ a ++ 1#12]
  | .minv => [167#8 ++ 0#24]
  | .mpop => [168#8 ++ 0#24]
  | .bmz o => [169#8 ++ 0#12 ++ o]
  | .mlease => [170#8 ++ 0#24]
  | .mrel => [171#8 ++ 0#24]
  | .mma d a b => [172#8 ++ d ++ a ++ b ++ 0#6]
  | .mmag p q r => [173#8 ++ p ++ q ++ r ++ 0#6]
  | .aalloc d a => [174#8 ++ d ++ a ++ 0#12]
  | .afree d a => [175#8 ++ d ++ a ++ 0#12]
  | .azero d a => [176#8 ++ d ++ a ++ 0#12]
  | .aadd d a => [177#8 ++ d ++ a ++ 0#12]
  | .adrain p q => [178#8 ++ p ++ q ++ 0#12]
  | .tunpk d a r => [179#8 ++ d ++ a ++ 0#9 ++ r]
  | .tst n b o => [193#8 ++ n ++ b ++ o]
  | .tstk n b o => [194#8 ++ n ++ b ++ o]
  | .ast p q x => [195#8 ++ p ++ q ++ 0#6 ++ BitVec.ofBool x ++ 0#5]
  | .scat p q r x l => [196#8 ++ p ++ q ++ r ++ BitVec.ofBool x ++ 0#3 ++ l]
  | .scata p q r x k l => [197#8 ++ p ++ q ++ r ++ BitVec.ofBool x ++ 0#1 ++ k ++ l]
  | .upd p q r x f l => [198#8 ++ p ++ q ++ r ++ BitVec.ofBool x ++ 0#1 ++ f ++ l]
  | .car p q r x => [200#8 ++ p ++ q ++ r ++ BitVec.ofBool x ++ 0#5]
  | .crs p q r x => [201#8 ++ p ++ q ++ r ++ BitVec.ofBool x ++ 0#5]
  | .cag p q r x => [202#8 ++ p ++ q ++ r ++ BitVec.ofBool x ++ 0#5]
  | .cbc p q r x => [203#8 ++ p ++ q ++ r ++ BitVec.ofBool x ++ 0#5]
  | .pageProcedureDone .. | .waitkSatisfied .. | .sigkRoom .. | .fullEmptyWaitDone .. | .arwaitDone ..
  | .gbarEpisodeComplete .. | .matrixArrayGrant .. | .leaseLapse .. | .exitRetire .. | .stepBoundary ..
  | .bankUnpark .. | .strandFaultStop .. | .chunkArrive .. | .chunkFault .. | .astFinish ..
  | .commandRelocate .. | .nestActivate .. | .gangDispatch .. | .gangResume .. | .gangSwitchOut ..
  | .partitionExchangeDone .. | .segmentBind .. | .peerRequest .. | .peerResponse .. | .errorQueuePost ..
  | .flitForward .. | .requestTimeout .. | .routeEntryLoad .. | .linkRetry .. | .cellRequest ..
  | .cellRelease .. | .cellGrant .. | .hwMigrationDone .. | .lendRequest .. | .leaseOffer ..
  | .offerAnswer .. | .reclaimEvent .. | .pageDemoteDone .. | .returnMessage .. | .reclaimDeadline ..
  | .fenceMessage .. | .packageLost .. | .polderRequest .. | .collectiveMessage .. | .collectiveAbort ..
  | .precopyRound .. | .endpointUpdate .. | .sweepPage .. | .snapshotPageCopy .. | .correctedError ..
  | .thermalTrip .. | .limitEngage .. | .startStepDone .. | .startStepFail .. | .startCold .. | .startWarm ..
  | .stopCold .. | .stopWarm .. | .sqtailDoorbell .. | .cqheadAdvance .. | .hostRegisterWrite ..
  | .i3cWindowRead .. | .i3cLimitWrite .. | .write .. | .copyin .. | .read .. | .copyout .. | .signal ..
  | .launch .. | .cntw .. | .csrw .. | .tablewSpaceRoot .. | .tablewReplicaSet .. | .tablewMthr ..
  | .tablewFramePoolAdd .. | .tablewFramePoolRemove .. | .tablewTablePoolAdd .. | .tablewTablePoolRemove ..
  | .tablewCommunicator .. | .tablewEndpoint .. | .tablewSaveBases .. | .sluiceLend .. | .sluiceReclaim ..
  | .migrate .. | .preemptGang .. | .preemptPartition .. | .bankwGreg .. | .bankwCsr .. | .bankwTile ..
  | .resumeRetry .. | .resumeSkip .. | .resumeEnd .. | .evread .. | .snap .. | .parity .. | .restore ..
  | .rankCreate .. | .rankEnd .. | .invalPage .. | .invalSpace .. | .swread .. | .swcopy .. | .limitPlimit ..
  | .limitTlimit .. | .limitThreshold .. | .illegalWord .. | .unknownOp .. => []

/-- The Sluice command of a command row. -/
def encodeCommand : Instr → Option Command
  | .write _ c => some c
  | .copyin _ c => some c
  | .read _ c => some c
  | .copyout _ c => some c
  | .signal _ c => some c
  | .launch _ c => some c
  | .cntw _ c => some c
  | .csrw _ c => some c
  | .tablewSpaceRoot _ c => some c
  | .tablewReplicaSet _ c => some c
  | .tablewMthr _ c => some c
  | .tablewFramePoolAdd _ c => some c
  | .tablewFramePoolRemove _ c => some c
  | .tablewTablePoolAdd _ c => some c
  | .tablewTablePoolRemove _ c => some c
  | .tablewCommunicator _ c => some c
  | .tablewEndpoint _ c => some c
  | .tablewSaveBases _ c => some c
  | .sluiceLend _ c => some c
  | .sluiceReclaim _ c => some c
  | .migrate _ c => some c
  | .preemptGang _ c => some c
  | .preemptPartition _ c => some c
  | .bankwGreg _ c => some c
  | .bankwCsr _ c => some c
  | .bankwTile _ c => some c
  | .resumeRetry _ c => some c
  | .resumeSkip _ c => some c
  | .resumeEnd _ c => some c
  | .evread _ c => some c
  | .snap _ c => some c
  | .parity _ c => some c
  | .restore _ c => some c
  | .rankCreate _ c => some c
  | .rankEnd _ c => some c
  | .invalPage _ c => some c
  | .invalSpace _ c => some c
  | .swread _ c => some c
  | .swcopy _ c => some c
  | .limitPlimit _ c => some c
  | .limitTlimit _ c => some c
  | .limitThreshold _ c => some c
  | .unknownOp _ c => some c
  | .add .. | .sub .. | .mul .. | .mulh .. | .mulhu .. | .div .. | .divu .. | .rem .. | .remu .. | .and ..
  | .or .. | .xor .. | .shl .. | .shr .. | .sra .. | .slt .. | .sltu .. | .min .. | .max .. | .minu ..
  | .maxu .. | .sel .. | .clz .. | .popc .. | .shli .. | .shri .. | .srai .. | .addi .. | .andi .. | .ori ..
  | .xori .. | .slti .. | .bfx .. | .bfi .. | .li .. | .lih .. | .b .. | .call .. | .jr .. | .loop ..
  | .beq .. | .bne .. | .blt .. | .bge .. | .bltu .. | .bgeu .. | .csrR .. | .csrW .. | .csrS .. | .csrC ..
  | .tcfg .. | .rng .. | .rngRs .. | .step .. | .yield .. | .exit .. | .trig .. | .gbar .. | .trap ..
  | .sys .. | .enq .. | .lds .. | .sts .. | .ldg .. | .stg .. | .ldgAcq .. | .stgRel .. | .ldfK .. | .ldfC ..
  | .waitfK .. | .waitfC .. | .amo .. | .cas .. | .acq .. | .acqSh .. | .rel .. | .bind .. | .lend ..
  | .reclaim .. | .tlbi .. | .tlbiSp .. | .pgsplit .. | .pgcoll .. | .pgmig .. | .pageProcedureDone ..
  | .nop .. | .fence .. | .sigk .. | .waitk .. | .arinit .. | .arwait .. | .fset .. | .fclr .. | .tld ..
  | .tldt .. | .tldk .. | .cbld .. | .gather .. | .gred .. | .cpy .. | .cpyt .. | .tmov .. | .vadd ..
  | .vsub .. | .vmul .. | .vfma .. | .vfms .. | .vfnma .. | .vmin .. | .vmax .. | .vabs .. | .vneg ..
  | .vcmp .. | .vsel .. | .vcvt .. | .viadd .. | .visub .. | .vimul .. | .vand .. | .vor .. | .vxor ..
  | .vnot .. | .vshl .. | .vshr .. | .vsra .. | .vmov .. | .vmovG .. | .vbcr .. | .vbcc .. | .vrotr ..
  | .vrotc .. | .vredr .. | .vredc .. | .vscanr .. | .vscanc .. | .viota .. | .vrng .. | .vcor ..
  | .vdkadd .. | .vdkapp .. | .mpush .. | .mpushNew .. | .minv .. | .mpop .. | .bmz .. | .mlease ..
  | .mrel .. | .mma .. | .mmag .. | .aalloc .. | .afree .. | .azero .. | .aadd .. | .adrain .. | .tunpk ..
  | .tst .. | .tstk .. | .ast .. | .scat .. | .scata .. | .upd .. | .car .. | .crs .. | .cag .. | .cbc ..
  | .waitkSatisfied .. | .sigkRoom .. | .fullEmptyWaitDone .. | .arwaitDone .. | .gbarEpisodeComplete ..
  | .matrixArrayGrant .. | .leaseLapse .. | .exitRetire .. | .stepBoundary .. | .bankUnpark ..
  | .strandFaultStop .. | .chunkArrive .. | .chunkFault .. | .astFinish .. | .commandRelocate ..
  | .nestActivate .. | .gangDispatch .. | .gangResume .. | .gangSwitchOut .. | .partitionExchangeDone ..
  | .segmentBind .. | .peerRequest .. | .peerResponse .. | .errorQueuePost .. | .flitForward ..
  | .requestTimeout .. | .routeEntryLoad .. | .linkRetry .. | .cellRequest .. | .cellRelease ..
  | .cellGrant .. | .hwMigrationDone .. | .lendRequest .. | .leaseOffer .. | .offerAnswer ..
  | .reclaimEvent .. | .pageDemoteDone .. | .returnMessage .. | .reclaimDeadline .. | .fenceMessage ..
  | .packageLost .. | .polderRequest .. | .collectiveMessage .. | .collectiveAbort .. | .precopyRound ..
  | .endpointUpdate .. | .sweepPage .. | .snapshotPageCopy .. | .correctedError .. | .thermalTrip ..
  | .limitEngage .. | .startStepDone .. | .startStepFail .. | .startCold .. | .startWarm .. | .stopCold ..
  | .stopWarm .. | .sqtailDoorbell .. | .cqheadAdvance .. | .hostRegisterWrite .. | .i3cWindowRead ..
  | .i3cLimitWrite .. | .illegalWord .. => none

/-- The decoder on a word given as a number, bit 0 least significant; every word has 32 bits (R297). -/
def decodeTableWord (nbits w : Nat) : Option Instr :=
  if nbits ≤ 32 then decode (BitVec.ofNat 32 w) else none

end Sys2Proof
end

