-- ==== Sys2Proof/Machine/Bits.lean ====
section
/-! DEFINITION. Fields of words, extension and packing. -/

namespace Sys2Proof.Machine

/-- Bits `hi` to `lo` of a word as a number. -/
def fld (w : Word) (hi lo : Nat) : Nat := w.toNat / 2 ^ lo % 2 ^ (hi + 1 - lo)

/-- Bit `i` of a word. -/
def bit (w : Word) (i : Nat) : Bool := w.getLsbD i

/-- A bit as a number. -/
def b2n (b : Bool) : Nat := if b then 1 else 0

/-- A number as a register value. -/
def wd (n : Nat) : Word := BitVec.ofNat 64 n

/-- A number of `n` bits, sign-extended to 64 (R12). -/
def sextNat (n v : Nat) : Word := (BitVec.ofNat n v).signExtend 64

/-- The mask with bits `a` to `a + n - 1` set. -/
def maskBits (a n : Nat) : Word := wd ((2 ^ n - 1) * 2 ^ a)

/-- A word with one bit set. -/
def oneBit (i : Nat) : Word := wd (2 ^ i)

/-- `ceil(a / b)`. -/
def ceilDiv (a b : Nat) : Nat := (a + b - 1) / b

/-- 32-bit unit `i` of a packed vector. -/
def unit32 {n : Nat} (v : BitVec n) (i : Nat) : BitVec 32 := v.extractLsb' (32 * i) 32

/-- Packs numbers of `w` bits, the first lowest. -/
def packNat (w : Nat) (l : List Nat) : Nat := l.foldr (fun x acc => x % 2 ^ w + 2 ^ w * acc) 0

/-- Unpacks `n` numbers of `w` bits, the lowest first. -/
def unpackNat (w n v : Nat) : List Nat := (List.range n).map fun i => v / 2 ^ (w * i) % 2 ^ w

/-- The HOME form of a die as a PEER number: package in [11:2], die in [1:0] (R2). -/
def peerOf (d : DieKey) : BitVec 12 := (d.extractLsb' 0 10) ++ (d.extractLsb' 10 2)

/-- A PEER number as a die in the HOME form (R2). -/
def dieOfPeer (p : BitVec 12) : DieKey := (p.extractLsb' 0 2) ++ (p.extractLsb' 2 10)

end Sys2Proof.Machine
end

