-- ==== Sys2Proof/Config.lean ====
section
/-! DEFINITION. The values that the spec leaves open, as constants without a body, and the sizes of the part.
A free value is drawn with `State.nfree` (log 4): no definition or proof can see which value it is. -/

namespace Sys2Proof.Config

/-- An aligned 8-byte word of a transfer that stopped: which of the old and the new word it holds is open (R215, R244, R265). -/
opaque tornTakesNew : Nat → Bool

/-- Between a change of a leaf and its invalidation, whether a request translates through the old leaf (R176). -/
opaque staleHit : Nat → Bool

/-- A value of bits for which the spec names an effect but no result. -/
opaque freeWord : Nat → Word

/-- A word of the state window whose layout the spec does not give (R295, log 35). -/
opaque windowWord : Nat → Word

/-- The contents of a saved tile or accumulator bank whose image cannot be reached: R232 makes the mapping software's duty. -/
opaque freeTile : Nat → BitVec 32768

/-- As `freeTile`, for an accumulator bank. -/
opaque freeBank : Nat → BitVec 65536

/-- 64 KiB frames of a die's HBM4E (R169). -/
def hbmFrames : Nat := 2097152

/-- 64 KiB frames of a die's LPDDR-6 (R169). -/
def lpddrFrames : Nat := 4194304

/-- Bytes of a core's LS (R137). -/
def lsBytes : Nat := 1572864

/-- Segments of a core's LS, of a cluster's CS and of a die's DS (R137). -/
def lsSegs : Nat := 24
def csSegs : Nat := 256
def dsSegs : Nat := 1024

/-- Cycles after which an unanswered request fails (R257). -/
def timeoutCycles : Nat := 1048576

/-- Cycles of a parked bank (R479). -/
def parkCycles : Nat := 256

end Sys2Proof.Config
end

