-- ==== Sys2Proof/Machine/State.lean ====
section
/-! DEFINITION. The state of the whole fabric of parts, as plain data: every item that INVENTORY.md lists. Tables with
a numeric key are lists of (key, value) pairs in rising order of the key; an absent key means that the object does
not exist, or that it holds its reset value where the field says so. -/

namespace Sys2Proof.Machine

/-- A table: pairs of key and value, keys strictly rising. -/
abbrev Tab (α : Type) := List (Nat × α)

/-! ### Strand -/

/-- What a stream waits for. Each wait ends by a step of its own in the opcode table. -/
inductive Wait where
  | none
  | token
  | room
  | fe
  | arwait
  | gbar
  | array
  | reply (msg : Nat)
  | cell
  | exit
  | step
  | page
  | lease
  | segment (addr : Word)
  deriving DecidableEq, Repr

/-- One of the four streams (R45, R46, R51): program counter, position in the walk, delay-slot words still to pass and
where the walk goes after them, and what the stream waits for. -/
structure StreamSt where
  pc : Word
  pos : Nat
  delay : Nat
  target : Word
  wait : Wait
  deriving DecidableEq, Repr

/-- A word of the walk as it was read (R303), with the rotation in force at it (R155) and whether its own stream has
executed it. -/
structure WalkWord where
  pos : Nat
  addr : Word
  bits : IWord
  rot : Field
  done : Bool
  deriving DecidableEq, Repr

/-- A resolved branch: its position, whether it is taken, and where the walk goes after the delay slots (R50). -/
structure BranchOutcome where
  pos : Nat
  taken : Bool
  target : Word
  deriving DecidableEq, Repr

/-- The matrix lease (R56). -/
inductive Lease where
  | none
  | held (cmds : Nat) (cycles : Nat)
  | lapsed
  deriving DecidableEq, Repr

/-- The state of a context bank (R96); `ended` is a strand that End has ended and whose bank is not yet free (R243). -/
inductive BankState where
  | run
  | parked (cycles : Nat)
  | faulted
  | ended
  deriving DecidableEq, Repr

/-- What an asynchronous command does (R365, R367, R357). -/
inductive CmdOp where
  | cpy (len : Nat)
  | cpyt (width height spitch dpitch : Nat)
  | car
  | crs
  | cag
  | cbc
  deriving DecidableEq, Repr

/-- The state of a command: in flight, stopped at its next chunk (R91), or faulted there (R241). -/
inductive CmdState where
  | running
  | stopped
  | faulted
  deriving DecidableEq, Repr

/-- What every message of a collective carries (R260). -/
structure CollHead where
  comm : Nat
  seq : BitVec 32
  op : BitVec 4
  fmt : Bool
  count : Nat
  root : Nat
  members : Nat
  ring : Bool
  wire : Bool
  ieee : Bool
  deriving DecidableEq, Repr

/-- The final bytes a collective's member has received: position of the first 32-bit word and the words. -/
structure CollPiece where
  first : Nat
  words : List (BitVec 32)
  deriving DecidableEq, Repr

/-- A slot of the asynchronous command table (R71, R91, R240): operands, arrival counter, the `.RELOC` mark, the core whose
engine serves it (R227), its place in the order of issue, its next chunk, the chunks above it that have completed since
the last start, the chunks above it that have been counted; and for a collective its header, its member's position, the member list,
whether its endpoint has begun, the messages it has still to take, its partial in tree mode and the final words; and the
die map in force at its word (R47, R370). -/
structure Cmd where
  op : CmdOp
  stream : Stream
  dst : Word
  src : Word
  counter : Word
  reloc : Bool
  core : Nat
  order : Nat
  next : Nat
  ahead : List Nat
  counted : List Nat
  state : CmdState
  head : Option CollHead
  pos : Option Nat
  members : List Nat
  begun : Bool
  left : Nat
  tree : List (BitVec 32)
  pieces : List CollPiece
  dmap : Vector Word 32
  deriving DecidableEq, Repr

/-- A running AST (R346): destination, shape, format and the banks it reads, its next row, the banks that AFREE
released under it (R153, R247), the saturated results so far, whether it has faulted and waits for the restart, and the die
map in force at its word (R47, R370). -/
structure Ast where
  pos : Nat
  pc : Word
  dst : Word
  desc : Word
  row : Nat
  ovf : BitVec 16
  iovf : Bool
  freed : BitVec 64
  rnd : BitVec 3
  ieee : Bool
  stopped : Bool
  dmap : Vector Word 32
  deriving DecidableEq, Repr

/-- A collective that a strand has issued (R260, R265): communicator, SEQ, and the member list as the issue found it. -/
structure IssuedColl where
  comm : Nat
  seq : BitVec 32
  members : List Nat
  deriving DecidableEq, Repr

/-- A fault that a word or a command has met and that the strand's stop has yet to record (R237). -/
structure Noted where
  sync : Bool
  pos : Nat
  pc : Word
  slot : Nat
  stream : Stream
  cause : BitVec 8
  addr : Word
  prog : Word
  deriving DecidableEq, Repr

/-- An entry of the error queue (R90). -/
structure ErrEntry where
  addr : Word
  peer : BitVec 12
  cause : BitVec 8
  deriving DecidableEq, Repr

/-- Progress of a multi-part word that faulted and will be resumed (R244 to R247), or that has issued, has done a part and is
stalled (`live`): a stop waits for such a word (R236). -/
structure Progress where
  pos : Nat
  count : Nat
  part : Nat
  ovf : BitVec 16
  iovf : Bool
  live : Bool
  deriving DecidableEq, Repr

/-- A strand: everything of R71, where it stands, and who it is. `place` is its context bank while it is resident, `early` the
banks that an AFREE released under an AST not yet issued, by the AST's position (R153, R493), `taker` the sibling core that
has taken the GRED at which the L stream stands (R227). -/
structure Strand where
  rank : Nat
  gang : Nat
  member : Nat
  place : Option Nat
  priv : Bool
  c : StreamSt
  l : StreamSt
  x : StreamSt
  s : StreamSt
  walk : List WalkWord
  boq : List BranchOutcome
  g : Vector Word 64
  tok : Vector (BitVec 16) 16
  masks : List (BitVec 1024)
  lanes : BitVec 32768
  win : BitVec 11
  base : Nat
  size : Nat
  nrot : Nat
  rrb : Field
  tcfg : Vector Word 64
  tstat : Vector Word 64
  lease : Lease
  rnd : BitVec 3
  ieee : Bool
  lfLane : BitVec 10
  lfAuto : Bool
  mEntry : BitVec 3
  mWord : BitVec 4
  feGroup : BitVec 11
  stepv : BitVec 48
  bindA : Vector Word 64
  bindB : Vector Word 64
  dmap : Vector Word 32
  cmds : Tab Cmd
  asts : List Ast
  prog : List Progress
  frame : Vector Word 9
  noted : List Noted
  errq : List ErrEntry
  errOvf : Bool
  trig : Bool
  state : BankState
  saved : List Nat
  acq : Option (Word × Option Bool)
  colls : List IssuedColl
  early : Tab (BitVec 64)
  taker : Option Nat
  deriving DecidableEq, Repr

/-! ### Gang, nest, rank -/

/-- A gang (R41, R225): its iteration, where it stands, its live and ended members, what it has signalled, the context
image it holds (R231), when it was last switched out (R157), and which of its LS segments its image holds. -/
structure Gang where
  rank : Nat
  nest : Nat
  ordinal : Nat
  lp : Nat
  cluster : Nat
  first : Nat
  cores : Nat
  spc : Nat
  resident : Bool
  live : List Nat
  trigs : List Nat
  triggered : Bool
  image : Option Nat
  left : Nat
  saved : List Nat
  deriving DecidableEq, Repr

/-- An active nest (R219): its record, entry point, placement in progress (R223) and what has happened to its gangs. -/
structure Nest where
  rank : Nat
  addr : Word
  words : Vector Word 8
  priv : Bool
  launched : Bool
  entry : Word
  cls : BitVec 2
  parts : Nat
  costs : Option (List Nat)
  loads : List Nat
  round : Nat
  placed : Nat
  todo : List (Nat × Nat)
  dispatched : Nat
  triggered : Nat
  retired : Nat
  trigDone : Bool
  deriving DecidableEq, Repr

/-- An event of a rank's queue (R252). -/
structure Event where
  payload : BitVec 128
  seq : Word
  step : BitVec 48
  deriving DecidableEq, Repr

/-- An entry of a work queue (R217) with the privilege it was pushed with (R78). -/
structure QueueEntry where
  addr : Word
  priv : Bool
  sluice : Bool
  deriving DecidableEq, Repr

/-- A communicator (R259): the runtime's words and the device's OVF and SEQ. -/
structure Comm where
  w0 : Word
  w1 : Word
  w2 : BitVec 48
  ovf : BitVec 16
  seq : BitVec 32
  deriving DecidableEq, Repr

/-- A run of frames or of 256-byte table parts: the first and the count. -/
structure Extent where
  first : Nat
  count : Nat
  deriving DecidableEq, Repr

/-- A page that Barchan has placed at the new home: the leaf's private offset, its size code and the new frame. -/
structure MovedPage where
  off : Nat
  size : BitVec 2
  tier : BitVec 2
  frame : Nat
  deriving DecidableEq, Repr

/-- A migration under way (R268): target, round, pages written since the round began, what Barchan has taken at the new
home, and whether the pre-copy is finished. -/
structure Precopy where
  target : DieKey
  round : Nat
  dirty : List Nat
  moved : List MovedPage
  tables : List (Nat × Extent)
  ds : List Nat
  slot : Nat
  finished : Bool
  deriving DecidableEq, Repr

/-- A stamp sweep (R134): reference step and the decay table at it, the pages still to do by number of 64 KiB page of the
virtual address, in order, and the pages that an access waits for (R135). -/
structure Sweep where
  s0 : BitVec 48
  decay : Tab (BitVec 48)
  todo : List Extent
  ahead : List Nat
  deriving DecidableEq, Repr

/-- A snapshot request (R272, R274). -/
structure SnapReq where
  base : Word
  layout : Word
  deriving DecidableEq, Repr

/-- A page that a snapshot has passed: its number, its unit in the shard, none if absent, and its leaf word. -/
structure SnapPage where
  page : Nat
  unit : Option Nat
  leaf : Word
  deriving DecidableEq, Repr

/-- An open snapshot (R273): its request, the step, the pages still to copy and those passed, the unit of the next page,
and the rank's state at the opening. -/
structure Snap where
  req : SnapReq
  step : BitVec 48
  todo : List Nat
  copied : List SnapPage
  next : Nat
  image : List Word
  deriving DecidableEq, Repr

/-- What follows when the switch-outs of a job are done (R229, R269, R293, R497). -/
inductive FollowUp where
  | preempt (pkg : Nat) (ticket : Nat)
  | exchange (lp : Nat) (inRank : Option Nat) (inLp : Nat) (pkg : Nat) (ticket : Nat)
  | flip
  | warm (pkg : Nat)
  deriving DecidableEq, Repr

/-- Gangs of a rank still to be switched out, in order (R230), and what follows. -/
structure SwitchJob where
  gangs : List Nat
  follow : FollowUp
  deriving DecidableEq, Repr

/-- What a STEP has taken from the step latch and the orders of its boundary have still to do (R36, R37): the class, the
snapshot, and the migration with its pre-copy finished. -/
structure Due where
  cls : Option (BitVec 2)
  snap : Option SnapReq
  move : Option DieKey
  deriving DecidableEq, Repr

/-- A virtual rank (R72). `due` is what the STEP of the boundary under way has taken from the step latch. -/
structure Rank where
  job : BitVec 32
  vrank : BitVec 16
  nrankm1 : BitVec 16
  home : DieKey
  slot : Nat
  parts : Nat
  rseed : Word
  pseed : Word
  csseg : Nat
  ds : List Nat
  endpbase : Word
  savebase : Word
  nimg : Nat
  csbase : Word
  gstep : BitVec 48
  cls : BitVec 2
  pend : Option (BitVec 2)
  migrate : Option DieKey
  snapReq : Option SnapReq
  decay : Tab (BitVec 48)
  srbase : Vector Word 8
  srlen : Vector Word 8
  evq : List Event
  evOvf : Bool
  evSeq : Word
  queues : Vector (List QueueEntry) 4
  counters : Tab (BitVec 32)
  comms : Tab Comm
  dmap : Vector Word 32
  clusters : Tab Nat
  jobs : List SwitchJob
  out : List Nat
  csSaved : List Nat
  csLeft : Tab Nat
  precopy : Option Precopy
  sweeps : List Sweep
  snap : Option Snap
  stepping : Option Nat
  due : Option Due
  asleep : Bool
  deriving DecidableEq, Repr

/-! ### Core, cluster, die -/

/-- The owner of an accumulator bank (R153): the strand, and whether the bank is DRAINING. -/
structure BankOwner where
  uid : Nat
  draining : Bool
  deriving DecidableEq, Repr

/-- State of a segment (R156); a segment without a record is FREE. MOVING is `saving` from a claim until the save completes, with the
rank, holder, logical segment and core in the gang that claim it, and `restoring` while its new holder's contents are still to come (R160). -/
inductive SegState where
  | active
  | idle
  | saving (rank holder lseg gcore : Nat)
  | restoring
  deriving DecidableEq, Repr

/-- The owner record of a segment of LS or CS (R156): rank, holder (gang for LS, logical partition for CS), logical
segment, for LS the core within the gang, state. -/
structure SegRec where
  rank : Nat
  holder : Nat
  lseg : Nat
  gcore : Nat
  state : SegState
  deriving DecidableEq, Repr

/-- The owner tag of a shadow-store slot (R233) with the slot's contents. -/
structure Shadow (n : Nat) where
  rank : Nat
  gang : Nat
  image : Nat
  core : Nat
  name : Nat
  data : BitVec n
  deriving DecidableEq, Repr

/-- A slot of the space table (R165). -/
structure Space where
  job : BitVec 32
  key : Nat
  root : Word
  deriving DecidableEq, Repr

/-- An entry of the memory-side TLB (R175). -/
structure TlbEntry where
  job : BitVec 32
  key : Nat
  page : Nat
  size : BitVec 2
  leaf : Word
  deriving DecidableEq, Repr

/-- A request count of a MIGRATE page (R173). -/
structure MigCount where
  job : BitVec 32
  key : Nat
  page : Nat
  home : DieKey
  count : Nat
  deriving DecidableEq, Repr

/-- Which page a live page is (R192): its granule, where its leaf lies, the page number and the virtual rank of its mapping, and
its size code. -/
structure LiveAt where
  granule : Nat
  lpddr : Bool
  at_ : Nat
  offp : Nat
  vrank : Nat
  size : Nat
  deriving DecidableEq, Repr

/-- An entry of the polder table (R185); on the borrower's side, where the copying of a reclaim stands: the granule reached, the
range of pages that is open (R195), and its live pages still to be left, as the reclaim event found them (R190, R193). -/
structure Polder where
  state : BitVec 3
  borrower : Bool
  dclass : BitVec 2
  lender : BitVec 12
  borrow : BitVec 12
  job : BitVec 32
  base : BitVec 32
  len : BitVec 17
  rmap : BitVec 52
  rmt : Bool
  dleft : BitVec 32
  live : BitVec 32
  granule : Nat
  peer : Nat
  range : Option (Nat × Nat × Nat)
  todo : List LiveAt
  deriving DecidableEq, Repr

/-- Who holds a page (R183); a procedure acts on the leaf that translates the offset `ga` by which its word names the page (R179). -/
inductive Holder where
  | procedure (uid : Nat) (arg : Word) (stalls : Bool) (ga : Nat)
  | demotion (entry frame : Nat)
  | hwMigration (home : DieKey) (frame : Nat)
  deriving DecidableEq, Repr

/-- A held page: the space, the page's first offset and its size code. -/
structure Held where
  job : BitVec 32
  key : Nat
  off : Nat
  size : BitVec 2
  by_ : Holder
  deriving DecidableEq, Repr

/-- How a strand named a cell (R163, R207): the die that translated, the job, the space and the offset. -/
structure CellName where
  via : DieKey
  job : BitVec 32
  key : Nat
  off : Nat
  deriving DecidableEq, Repr

/-- A request in a cell's queue (R209). -/
structure CellReq where
  uid : Nat
  excl : Bool
  name : CellName
  deriving DecidableEq, Repr

/-- A hold on a cell, as its serving die records it (R332). -/
structure CellHold where
  addr : Nat
  uid : Nat
  excl : Bool
  name : CellName
  deriving DecidableEq, Repr

/-- A forwarding entry of a former home (R164, R269); after the rank's next boundary it only refuses. -/
structure Forward where
  rank : Nat
  dest : DieKey
  live : Bool
  deriving DecidableEq, Repr

/-- A compute die. -/
structure Die where
  spaces : Tab Space
  rsets : Tab (List (BitVec 12))
  mthr : Vector (BitVec 16) 8
  counts : List MigCount
  tlb : List TlbEntry
  hbmPool : List Extent
  lpddrPool : List Extent
  hbmTables : List Extent
  lpddrTables : List Extent
  polders : Tab Polder
  held : List Held
  cells : Tab (List CellReq)
  holds : List CellHold
  forwards : List Forward
  counters : Vector Word 8
  limits : Vector (BitVec 32) 8
  deriving DecidableEq, Repr

/-! ### Package and host -/

/-- The state of the start-control register (R278). -/
inductive StartState where
  | off
  | starting
  | started
  | failed
  deriving DecidableEq, Repr

/-- A completion: tag, status, value (R283). -/
structure Completion where
  tag : BitVec 16
  status : BitVec 8
  value : Word
  deriving DecidableEq, Repr

/-- A completion in acceptance order (R282, R288): resolved, or still awaited under its ticket. -/
structure Pending where
  ticket : Nat
  done : Option Completion
  tag : BitVec 16
  deriving DecidableEq, Repr

/-- A sealed shard (R274): its package's place for it, and what its header says. -/
structure Shard where
  die : DieKey
  base : Nat
  job : BitVec 32
  vrank : BitVec 16
  step : BitVec 48
  layout : Nat
  gsize : Nat
  member : Nat
  units : Nat
  deriving DecidableEq, Repr

/-- A parity row that a package holds (R275): the job, the packages of the group in the order of their positions, the step, the row
and the XOR of its units. -/
structure ParityRow where
  job : BitVec 32
  group : List Pkg
  step : BitVec 48
  row : Nat
  unit : BitVec 524288
  deriving DecidableEq, Repr

/-- The warm-save area of a package (R291, R293): its rank images with their gangs, nests and strands, the polder table and the
sync cells' holds and queues (R209) of each die, the shadow store with its tags, and the bytes of DS. -/
structure WarmSave where
  ranks : Tab Rank
  gangs : Tab Gang
  nests : Tab Nest
  strands : Tab Strand
  polders : Tab (Tab Polder)
  holds : Tab (List CellHold)
  cells : Tab (Tab (List CellReq))
  shadowTile : Tab (Shadow 32768)
  shadowAcc : Tab (Shadow 65536)
  ds : List Host.Cell
  deriving DecidableEq, Repr

/-- What the package configuration flash gives at the configuration load (R10, R290): stepping, serial number and trim
values. -/
structure Flash where
  stepping : BitVec 8
  serial : Word
  trims : List Word
  deriving DecidableEq, Repr

/-- A package: start control, start log, Sluice window, rings, routes, limits, shards and parity rows; `routeHold` has, for
each destination whose route entry has changed, the number of the first request sent after each change (R257); `copied` has the
bytes that the SWCOPY at SQHEAD has copied so far (R32); `stopping` says
that a warm stop is under way (R293), `ident` is the flash's identity and trim values as the last configuration load read
them, `i3cNotes` the failure warnings told to the host over the sideband (R31). -/
structure Package where
  state : StartState
  kind : BitVec 2
  step : Nat
  warmok : Bool
  trip : Bool
  log : List Word
  attempt : Nat
  lastKind : BitVec 2
  resumable : Bool
  stopping : Bool
  flash : Flash
  ident : Flash
  ring : Tab Command
  sqtail : BitVec 8
  sqhead : BitVec 8
  cqset : Bool
  cqbase : Word
  cqsize : Word
  cqhead : Word
  cqtail : Word
  nqset : Bool
  nqbase : Word
  nqsize : Word
  nqhead : Word
  nqtail : Word
  ovr : Bool
  nqovf : Bool
  nqlost : BitVec 16
  pending : List Pending
  copied : Nat
  plimit : Word
  tlimit : Word
  i3cData : Word
  i3cNotes : List (BitVec 128)
  routes : Tab Word
  routeHold : Tab (List Nat)
  lost : List Pkg
  warm : Option WarmSave
  shards : List Shard
  parity : List ParityRow
  deriving DecidableEq, Repr

/-! ### Messages -/

/-- What an access does at memory (R172, R174, R211). -/
inductive AccessOp where
  | load (signed : Bool)
  | store
  | amo (op : BitVec 4) (ret : Bool)
  | cas
  | acquireLoad
  | releaseStore
  deriving DecidableEq, Repr

/-- A request of a strand to another die (R163): who asks, the space and the offset, the bytes, once a POLDER or PEER leaf
has been met the physical address it was forwarded with (R170), and whether its word waits for the answer (R174). -/
structure Access where
  uid : Nat
  stream : Stream
  pos : Nat
  op : AccessOp
  job : BitVec 32
  key : Nat
  off : Nat
  va : Word
  bytes : Nat
  data : Word
  other : Word
  dst : Field
  home : DieKey
  phys : Option (Nat × Bool)
  via : DieKey
  waits : Bool
  deriving DecidableEq, Repr

/-- The address of a cell request in its space (R207). -/
structure CellAddr where
  uid : Nat
  job : BitVec 32
  key : Nat
  off : Nat
  va : Word
  home : DieKey
  phys : Option (Nat × Bool)
  via : DieKey
  deriving DecidableEq, Repr

/-- The phase of a collective's message (R261, R262). -/
inductive CollPhase where
  | start
  | reduce (chunk : Nat) (hop : Nat)
  | gather (chunk : Nat) (hop : Nat)
  | up (round : Nat)
  | down
  | bytes (from_ : Nat) (hop : Nat)
  deriving DecidableEq, Repr

/-- A message of a collective: sender and receiver ranks, the header, and the words it carries. -/
structure CollMsg where
  from_ : Nat
  dest : Nat
  head : CollHead
  phase : CollPhase
  words : List (BitVec 32)
  deriving DecidableEq, Repr

/-- Who asked for a lease to be set up or taken back: a strand's stream, or a Sluice command's ticket (R188). -/
inductive Asker where
  | strand (uid : Nat) (dst : Field)
  | sluice (pkg : Nat) (ticket : Nat)
  deriving DecidableEq, Repr

/-- What a message is. -/
inductive Body where
  | access (a : Access)
  | reply (uid : Nat) (stream : Stream) (dst : Field) (value : Word) (va : Word) (req : Nat)
  | refuse (uid : Nat) (stream : Stream) (cause : BitVec 8) (va : Word) (req : Nat)
  | goOn (uid : Nat) (stream : Stream) (va : Word) (req : Nat)
  | ack (uid : Nat) (va : Word)
  | post (uid : Nat) (e : ErrEntry)
  | cellReq (a : CellAddr) (excl : Bool)
  | cellRel (a : CellAddr) (excl : Bool)
  | cellGrant (uid : Nat) (excl : Bool) (ok : Bool)
  | lend (w0 w1 w2 w3 : Word) (who : Asker)
  | offer (entry : Nat) (p : Polder) (who : Asker)
  | answer (entry : Nat) (accepted : Option Nat) (who : Asker)
  | lendDone (status : BitVec 8) (lender borrower : Nat) (who : Asker)
  | reclaimEvent (lenderEntry : Nat) (borrowerEntry : Nat)
  | returned (entry : Nat)
  | fence (entry : Nat)
  | polder (a : Access) (frameAddr : Nat)
  | coll (m : CollMsg)
  | resend (m : CollMsg)
  | abort (comm : Nat) (seq : BitVec 32) (dest : Nat)
  | endpoint (job : BitVec 32) (vrank : BitVec 16) (entry : Word)
  deriving DecidableEq, Repr

/-- A message between units: its number, source and target die in the HOME form, the package where it stands, the
links crossed, whether it has reached its die, the offset it is routed by (R256), the cycles since its request was sent, the
number of that request, and the package to which the request was sent (R257). -/
structure Msg where
  id : Nat
  src : DieKey
  dst : DieKey
  at_ : Pkg
  hops : Nat
  arrived : Bool
  route : Nat
  forwarded : Bool
  age : Nat
  req : Nat
  asked : Pkg
  body : Body
  deriving DecidableEq, Repr

/-! ### Answers of the memory system -/

/-- The answer to a request: a value, a cause of R239, or a stall with what ends it. -/
inductive Res (α : Type) where
  | ok (a : α)
  | fault (cause : BitVec 8)
  | stall (w : Wait)
  deriving DecidableEq, Repr

/-- A part of a range within one 4 KiB block: the byte address in the model's memory, the bytes, and whether the strand's
own die holds them. -/
structure Part where
  addr : Nat
  bytes : Nat
  local_ : Bool
  deriving DecidableEq, Repr

/-- The answer for a range: its parts in order, the cause and the address of the first failure, or a stall. -/
inductive RangeRes where
  | ok (parts : List Part)
  | fault (cause : BitVec 8) (addr : Word) (die : DieKey)
  | stall (w : Wait)
  deriving DecidableEq, Repr

/-- Who makes an access: the rank and what it translates with (R161, R162), the die it leaves from, and its context
bank and gang when it can reach scratchpads (R138). -/
structure Client where
  rank : Nat
  job : BitVec 32
  vrank : BitVec 16
  nrankm1 : BitVec 16
  endp : Word
  home : DieKey
  dmap : Vector Word 32
  die : DieKey
  place : Option Nat
  gang : Nat
  lp : Nat
  deriving DecidableEq, Repr

/-- Where the bytes of an access lie: the die that holds them, the die that translated, the byte address in the model's
memory, and whether a polder leaf led there. -/
structure Target where
  die : DieKey
  via : DieKey
  addr : Nat
  polder : Bool
  local_ : Bool
  deriving DecidableEq, Repr

/-! ### Turns and the state -/

/-- Who moves next (log 1). -/
inductive Turn where
  | stream (loc : Loc) (t : Stream)
  | event (i : Instr) (subject : Nat)
  | sluice (pkg : Pkg)
  | elapse (cycles : Nat)
  deriving DecidableEq, Repr

/-- The state of the fabric. Tables keyed by a place use the packed numbers of LOC (R78): a bank is LOC[19:0], a core
LOC[17:0], a cluster LOC[14:0], a die LOC[11:0], a package LOC[9:0]. -/
structure State where
  mem : List Host.Cell
  fe : List Nat
  strands : Tab Strand
  gangs : Tab Gang
  nests : Tab Nest
  ranks : Tab Rank
  tiles : Tab (BitVec 32768)
  accs : Tab (BitVec 65536)
  accOwner : Tab BankOwner
  books : Tab (BitVec 8192)
  array : Tab Nat
  arrayLast : Tab Nat
  arrayReq : Tab Nat
  lsSeg : Tab SegRec
  csSeg : Tab SegRec
  owner : Tab (Nat × Nat)
  shadowTile : Tab (Shadow 32768)
  shadowAcc : Tab (Shadow 65536)
  dies : Tab Die
  pkgs : Tab Package
  msgs : List Msg
  links : Tab Nat
  cur : Option (Nat × Stream)
  subject : Nat
  turns : List Turn
  ids : Nat
  nfree : Nat
  deriving DecidableEq, Repr

/-- Why a step stops with a fault. -/
inductive Fault where
  /-- Raised by `exec` for an instruction word when no strand is resident where the turn points: the spec gives a word
  no meaning outside a strand (R45). Safe: nothing is claimed of such a step. -/
  | noStrand
  deriving DecidableEq, Repr

/-- Why a step is refused. -/
inductive Refusal where
  /-- Raised by `exec` for an instruction without a meaning in this model, with its mnemonic. Safe: nothing is claimed
  of such a step. -/
  | notModelled (mnemonic : String)
  deriving DecidableEq, Repr

/-- The identity and trim values of a flash: zero, and no trim value (log 82). -/
def Flash.reset : Flash := { stepping := 0, serial := 0, trims := [] }

/-- A package before its first start: OFF, every register at its reset value (R278, R281, R294). -/
def Package.reset : Package where
  state := .off
  kind := 0
  step := 0
  warmok := false
  trip := false
  log := []
  attempt := 0
  lastKind := 0
  resumable := false
  stopping := false
  flash := Flash.reset
  ident := Flash.reset
  ring := []
  sqtail := 0
  sqhead := 0
  cqset := false
  cqbase := 0
  cqsize := 0
  cqhead := 0
  cqtail := 0
  nqset := false
  nqbase := 0
  nqsize := 0
  nqhead := 0
  nqtail := 0
  ovr := false
  nqovf := false
  nqlost := 0
  pending := []
  copied := 0
  plimit := 1900
  tlimit := 95
  i3cData := 0
  i3cNotes := []
  routes := []
  routeHold := []
  lost := []
  warm := none
  shards := []
  parity := []

/-- A die after a cold start (R290): every table empty, every lease FREE. -/
def Die.reset : Die where
  spaces := []
  rsets := []
  mthr := Vector.replicate 8 0
  counts := []
  tlb := []
  hbmPool := []
  lpddrPool := []
  hbmTables := []
  lpddrTables := []
  polders := []
  held := []
  cells := []
  holds := []
  forwards := []
  counters := Vector.replicate 8 0
  limits := Vector.replicate 8 0

/-- The fabric right after reset: every package OFF, nothing resident, memory with nothing listed. -/
def State.reset : State where
  mem := []
  fe := []
  strands := []
  gangs := []
  nests := []
  ranks := []
  tiles := []
  accs := []
  accOwner := []
  books := []
  array := []
  arrayLast := []
  arrayReq := []
  lsSeg := []
  csSeg := []
  owner := []
  shadowTile := []
  shadowAcc := []
  dies := []
  pkgs := []
  msgs := []
  links := []
  cur := none
  subject := 0
  turns := []
  ids := 0
  nfree := 0

end Sys2Proof.Machine
end

