-- ==== Sys2Proof/Machine/Tab.lean ====
section
/-! DEFINITION. Operations on tables, on sorted lists of numbers and on lists of extents. -/

namespace Sys2Proof.Machine

/-- The value under a key. -/
def tabGet {α : Type} (t : Tab α) (k : Nat) : Option α :=
  match t with
  | [] => none
  | (j, v) :: r => if j = k then some v else tabGet r k

/-- Puts a value under a key, keeping the keys in rising order. -/
def tabPut {α : Type} (t : Tab α) (k : Nat) (v : α) : Tab α :=
  match t with
  | [] => [(k, v)]
  | (j, w) :: r => if k < j then (k, v) :: (j, w) :: r else if k = j then (k, v) :: r else (j, w) :: tabPut r k v

/-- Removes a key. -/
def tabDel {α : Type} (t : Tab α) (k : Nat) : Tab α := t.filter fun e => e.1 ≠ k

/-- The value under a key, or the value that an absent key stands for. -/
def tabAt {α : Type} (t : Tab α) (d : α) (k : Nat) : α := (tabGet t k).getD d

/-- Puts a value, where a value equal to what an absent key stands for is not listed. -/
def tabSet {α : Type} [DecidableEq α] (t : Tab α) (d : α) (k : Nat) (v : α) : Tab α :=
  if v = d then tabDel t k else tabPut t k v

/-- Adds a number to a rising list without repeats. -/
def natIns (l : List Nat) (k : Nat) : List Nat :=
  match l with
  | [] => [k]
  | j :: r => if k < j then k :: j :: r else if k = j then j :: r else j :: natIns r k

/-- The numbers `a, a + 1, …`, `n` of them. -/
def natRange (a n : Nat) : List Nat := (List.range n).map (a + ·)

/-- Puts an element into a list that rises in a key, after its equals. -/
def insBy {α : Type} (key : α → Nat) (l : List α) (a : α) : List α :=
  match l with
  | [] => [a]
  | b :: r => if key a < key b then a :: b :: r else b :: insBy key r a

/-- A list in rising order of a key, equals in their order. -/
def sortBy {α : Type} (key : α → Nat) (l : List α) : List α := l.foldl (insBy key) []

/-- The first element with the least key. -/
def leastBy {α : Type} (key : α → Nat) (l : List α) : Option α :=
  match l with
  | [] => none
  | a :: r => match leastBy key r with
    | none => some a
    | some b => if key b < key a then some b else some a

/-- Whether every number of a range lies in the extents. -/
def extentHas (l : List Extent) (first count : Nat) : Bool :=
  match l with
  | [] => count == 0
  | e :: r =>
    if count == 0 then true
    else if e.first ≤ first && first < e.first + e.count then
      if first + count ≤ e.first + e.count then true
      else extentHas r (e.first + e.count) (first + count - (e.first + e.count))
    else extentHas r first count

/-- Whether some number of a range lies in the extents. -/
def extentMeets (l : List Extent) (first count : Nat) : Bool :=
  l.any fun e => first < e.first + e.count && e.first < first + count

/-- Removes a range from the extents. -/
def extentDel (l : List Extent) (first count : Nat) : List Extent :=
  l.flatMap fun e =>
    let a := max e.first first
    let b := min (e.first + e.count) (first + count)
    if b ≤ a then [e] else
      (if e.first < a then [Extent.mk e.first (a - e.first)] else []) ++
      (if b < e.first + e.count then [Extent.mk b (e.first + e.count - b)] else [])

/-- Puts one extent into a rising list, joining it to its neighbours. -/
def extentIns (l : List Extent) (n : Extent) : List Extent :=
  match l with
  | [] => [n]
  | e :: r =>
    if n.first + n.count < e.first then n :: e :: r
    else if e.first + e.count < n.first then e :: extentIns r n
    else extentIns r (Extent.mk (min e.first n.first)
      (max (e.first + e.count) (n.first + n.count) - min e.first n.first))

/-- Adds a range of at least one to the extents. -/
def extentAdd (l : List Extent) (first count : Nat) : List Extent :=
  if count = 0 then l else extentIns l (Extent.mk first count)

/-- The lowest run of `count` free numbers whose first is a multiple of `count` (R494). -/
def extentTake (l : List Extent) (count : Nat) : Option Nat :=
  match l with
  | [] => none
  | e :: r =>
    let a := (e.first + count - 1) / count * count
    if a + count ≤ e.first + e.count then some a else extentTake r count

end Sys2Proof.Machine
end

