-- ==== Sys2Proof/Machine/Mem.lean ====
section
/-! DEFINITION. Memory: one list of bytes for every store of the fabric (R3, R137, R170, R280), and the full-empty bits.
An address is a place in one of six stores; a byte that is not listed reads as zero (log 2). -/

namespace Sys2Proof.Machine

/-- What an unlisted address reads as (log 2). -/
def Memory.empty : Byte := 0

/-- The canonical form: addresses strictly rising, no entry equal to what an unlisted address reads as. -/
def Memory.wf : List Host.Cell → Bool
  | [] => true
  | [(_, b)] => b ≠ Memory.empty
  | (a, b) :: (c, d) :: r => a < c && b ≠ Memory.empty && Memory.wf ((c, d) :: r)

/-- Reads one byte. -/
def Memory.read (m : List Host.Cell) (a : Nat) : Byte :=
  match m with
  | [] => Memory.empty
  | (c, b) :: r => if c = a then b else if a < c then Memory.empty else Memory.read r a

/-- Writes one byte, keeping the canonical form. -/
def Memory.write (m : List Host.Cell) (a : Nat) (v : Byte) : List Host.Cell :=
  match m with
  | [] => if v = Memory.empty then [] else [(a, v)]
  | (c, b) :: r =>
    if a < c then (if v = Memory.empty then (c, b) :: r else (a, v) :: (c, b) :: r)
    else if a = c then (if v = Memory.empty then r else (c, v) :: r)
    else (c, b) :: Memory.write r a v

/-- `n` bytes from an address, little-endian (R13). -/
def Memory.readNat (m : List Host.Cell) (a n : Nat) : Nat :=
  match n with
  | 0 => 0
  | k + 1 => (Memory.read m a).toNat + 256 * Memory.readNat m (a + 1) k

/-- Writes the low `n` bytes of a number, little-endian (R13). -/
def Memory.writeNat (m : List Host.Cell) (a n v : Nat) : List Host.Cell :=
  match n with
  | 0 => m
  | k + 1 => Memory.writeNat (Memory.write m a (BitVec.ofNat 8 v)) (a + 1) k (v / 256)

/-- The byte address of HBM4E offset `off` of a die (R170). -/
def hbmAddr (die off : Nat) : Nat := die * 2 ^ 40 + off

/-- The byte address of LPDDR-6 offset `off` of a die (R170). -/
def lpddrAddr (die off : Nat) : Nat := 2 ^ 64 + die * 2 ^ 40 + off

/-- The byte address of a tier, 0 HBM4E and 1 LPDDR-6, at a die. -/
def tierAddr (lpddr : Bool) (die off : Nat) : Nat := if lpddr then lpddrAddr die off else hbmAddr die off

/-- The byte address of byte `off` of physical segment `seg` of a core's LS (R137). -/
def lsAddr (core seg off : Nat) : Nat := 2 * 2 ^ 64 + core * 2 ^ 24 + seg * 65536 + off

/-- The byte address in a cluster's CS. -/
def csAddr (cluster seg off : Nat) : Nat := 3 * 2 ^ 64 + cluster * 2 ^ 24 + seg * 65536 + off

/-- The byte address in a die's DS. -/
def dsAddr (die seg off : Nat) : Nat := 4 * 2 ^ 64 + die * 2 ^ 28 + seg * 65536 + off

/-- The byte address of host memory (R280). -/
def hostAddr (pkg a : Nat) : Nat := 5 * 2 ^ 64 + pkg * 2 ^ 64 + a

/-- Whether an address lies in an LS, and if so its granule (R142): LS addresses of all cores, in units of 16 bytes. -/
def granuleOf (a : Nat) : Option Nat :=
  if 2 * 2 ^ 64 ≤ a && a < 3 * 2 ^ 64 then some ((a - 2 * 2 ^ 64) / 16) else none

def State.rd (s : State) (a n : Nat) : Nat := Memory.readNat s.mem a n

def State.wr (s : State) (a n v : Nat) : State := { s with mem := Memory.writeNat s.mem a n v }

def State.full (s : State) (gr : Nat) : Bool := s.fe.contains gr

def State.setFull (s : State) (gr : Nat) : State := { s with fe := natIns s.fe gr }

def State.setEmpty (s : State) (gr : Nat) : State := { s with fe := s.fe.filter (· ≠ gr) }

end Sys2Proof.Machine
end

