-- ==== Sys2Proof/Machine/Ops.lean ====
section
/-! DEFINITION. The named operations that the meanings share: reading and writing the units' records, passing a word,
the checks before a word's own entry (R305), events and notifications, and taking a fault (R236) and resuming (R250). -/

namespace Sys2Proof.Machine

/-! ### Records -/

def State.strand (s : State) (u : Nat) : Option Strand := tabGet s.strands u

def State.setStrand (s : State) (u : Nat) (m : Strand) : State := { s with strands := tabPut s.strands u m }

/-- Changes a strand, if it exists. -/
def State.upd (s : State) (u : Nat) (f : Strand → Strand) : State :=
  match s.strand u with
  | none => s
  | some m => s.setStrand u (f m)

/-- The strand resident on a context bank. -/
def State.onBank (s : State) (loc : Nat) : Option (Nat × Strand) := s.strands.find? fun e => e.2.place = some loc

def State.rank? (s : State) (r : Nat) : Option Rank := tabGet s.ranks r

def State.setRank (s : State) (r : Nat) (v : Rank) : State := { s with ranks := tabPut s.ranks r v }

def State.updRank (s : State) (r : Nat) (f : Rank → Rank) : State :=
  match s.rank? r with
  | none => s
  | some v => s.setRank r (f v)

/-- The key of a rank: job and virtual rank (R163). -/
def rankKey (job : BitVec 32) (vrank : BitVec 16) : Nat := job.toNat * 65536 + vrank.toNat

def State.gang? (s : State) (g : Nat) : Option Gang := tabGet s.gangs g

def State.updGang (s : State) (g : Nat) (f : Gang → Gang) : State :=
  match s.gang? g with
  | none => s
  | some v => { s with gangs := tabPut s.gangs g (f v) }

def State.nest? (s : State) (n : Nat) : Option Nest := tabGet s.nests n

def State.updNest (s : State) (n : Nat) (f : Nest → Nest) : State :=
  match s.nest? n with
  | none => s
  | some v => { s with nests := tabPut s.nests n (f v) }

def State.die (s : State) (d : DieKey) : Die := tabAt s.dies Die.reset d.toNat

def State.setDie (s : State) (d : DieKey) (v : Die) : State := { s with dies := tabPut s.dies d.toNat v }

def State.updDie (s : State) (d : DieKey) (f : Die → Die) : State := s.setDie d (f (s.die d))

def State.pkg (s : State) (p : Pkg) : Package := tabAt s.pkgs Package.reset p.toNat

def State.setPkg (s : State) (p : Pkg) (v : Package) : State := { s with pkgs := tabPut s.pkgs p.toNat v }

def State.updPkg (s : State) (p : Pkg) (f : Package → Package) : State := s.setPkg p (f (s.pkg p))

/-- The package of a fabric die (R2). -/
def pkgOf (d : DieKey) : Pkg := d.extractLsb' 0 10

/-! ### Places -/

def locDie (loc : Nat) : DieKey := BitVec.ofNat 12 loc
def locCluster (loc : Nat) : Nat := loc % 2 ^ 15
def locCore (loc : Nat) : Nat := loc % 2 ^ 18
def locBank (loc : Nat) : Nat := loc / 2 ^ 18

/-- Core `i` of a cluster. -/
def coreOf (cluster i : Nat) : Nat := cluster + i * 2 ^ 15

/-- Bank `b` of a core. -/
def bankOf (core b : Nat) : Nat := core + b * 2 ^ 18

/-! ### A strand's registers and streams -/

def Strand.stream (m : Strand) : Stream → StreamSt
  | .c => m.c
  | .l => m.l
  | .x => m.x
  | .s => m.s

def Strand.setStream (m : Strand) (t : Stream) (v : StreamSt) : Strand :=
  match t with
  | .c => { m with c := v }
  | .l => { m with l := v }
  | .x => { m with x := v }
  | .s => { m with s := v }

def Strand.setWait (m : Strand) (t : Stream) (w : Wait) : Strand := m.setStream t { m.stream t with wait := w }

/-- A general register; `g0` reads as zero (R71). -/
def Strand.reg (m : Strand) (i : Field) : Word := if i = 0 then 0 else m.g[i.toNat]

/-- Writes a general register; a write of `g0` has no effect (R71). -/
def Strand.setReg (m : Strand) (i : Field) (v : Word) : Strand :=
  if i = 0 then m else { m with g := m.g.set i.toNat v }

/-- The least position of the four streams (R48). -/
def Strand.minPos (m : Strand) : Nat := min (min m.c.pos m.l.pos) (min m.x.pos m.s.pos)

/-- The positions of the other three streams, at least. -/
def Strand.otherMin (m : Strand) (t : Stream) : Nat :=
  ([Stream.c, .l, .x, .s].filter (· ≠ t)).foldl (fun a u => min a (m.stream u).pos) ((m.stream t).pos + 1)

/-- Passing the next word keeps the slip within WIN (R48). -/
def Strand.slipOk (m : Strand) (t : Stream) : Bool := (m.stream t).pos + 1 - m.otherMin t ≤ m.win.toNat

/-- The word of the walk at a position. -/
def Strand.wordAt (m : Strand) (pos : Nat) : Option WalkWord := m.walk.find? fun w => w.pos = pos

/-- A stream passes one word: the next word, the delay slots, the redirection after the second (R51). -/
def StreamSt.advance (p : StreamSt) : StreamSt :=
  { pc := if p.delay = 1 then p.target else p.pc + 4
    pos := p.pos + 1
    delay := p.delay - 1
    target := p.target
    wait := .none }

/-- Words and outcomes that every stream has passed leave the records; the last passed word stays, for LIH (R302). -/
def Strand.prune (m : Strand) : Strand :=
  { m with
    walk := m.walk.filter fun w => m.minPos ≤ w.pos + 1
    boq := m.boq.filter fun b => m.minPos ≤ b.pos }

/-- The stream passes the word it stands at. -/
def Strand.pass (m : Strand) (t : Stream) : Strand := (m.setStream t (m.stream t).advance).prune

/-- The word at which the stream stands is executed. -/
def Strand.markDone (m : Strand) (t : Stream) : Strand :=
  { m with walk := m.walk.map fun w => if w.pos = (m.stream t).pos then { w with done := true } else w }

/-- The word retires and its stream goes on to the next word. -/
def Strand.retire (m : Strand) (t : Stream) : Strand := (m.markDone t).pass t

/-- The rotation in force at the word where a stream stands (R155). -/
def Strand.rotAt (m : Strand) (t : Stream) : Field :=
  match m.wordAt (m.stream t).pos with
  | none => m.rrb
  | some w => w.rot

/-- Tokens, configurations and status words by number. -/
def Strand.token (m : Strand) (k : BitVec 4) : BitVec 16 := m.tok[k.toNat]

def Strand.setToken (m : Strand) (k : BitVec 4) (v : BitVec 16) : Strand := { m with tok := m.tok.set k.toNat v }

def vget {α : Type} {n : Nat} (v : Vector α n) (d : α) (i : Nat) : α := v.getD i d

def vset {α : Type} {n : Nat} (v : Vector α n) (i : Nat) (x : α) : Vector α n := v.setIfInBounds i x

/-- The top of the mask stack (R71). -/
def Strand.mask (m : Strand) : BitVec 1024 := m.masks.headD 0

/-- Commands in flight of the strands that are resident on a core (R3). -/
def State.coreCmds (s : State) (core : Nat) : Nat :=
  s.strands.foldl (fun (n : Nat) e => match e.2.place with
    | some l => if locCore l = core then n + (e.2.cmds.filter fun k => k.2.state = .running).length else n
    | none => n) 0

/-- The commands that a core can still take (R3). -/
def State.cmdRoom (s : State) (core : Nat) : Nat := 48 - s.coreCmds core

/-- The lowest free slot of the strand's 48, while the core has fewer than 48 commands in flight (R3, R358). -/
def State.freeSlot (s : State) (m : Strand) : Option Nat :=
  if s.coreCmds (locCore (m.place.getD 0)) ≥ 48 then none else (List.range 48).find? fun k => (tabGet m.cmds k).isNone

/-! ### Free values -/

/-- Draws the number of the next free value (log 4). -/
def State.draw (s : State) : Nat × State := (s.nfree, { s with nfree := s.nfree + 1 })

/-! ### Events and notifications -/

/-- Writes a 16-byte notification to a package's ring, or counts it as lost: NQLOST counts from the last time that NQOVF was cleared
(R281, R282; log 63). -/
def State.notify (s : State) (p : Pkg) (v : BitVec 128) : State :=
  let k := s.pkg p
  let full := k.nqsize = 0 || !k.nqset || (k.nqtail + 1).toNat % k.nqsize.toNat = k.nqhead.toNat
  if full then
    s.setPkg p { k with
      nqovf := true
      nqlost := if !k.nqovf then 1 else if k.nqlost = 0xFFFF then k.nqlost else k.nqlost + 1 }
  else
    (s.wr (hostAddr p.toNat (k.nqbase.toNat + 16 * k.nqtail.toNat)) 16 v.toNat).setPkg p
      { k with nqtail := wd ((k.nqtail.toNat + 1) % k.nqsize.toNat) }

/-- The notification that a rank's event queue has become non-empty (R289). -/
def evqNote (r : Rank) : BitVec 128 :=
  BitVec.ofNat 128 (0x05 + r.job.toNat * 2 ^ 32 + r.vrank.toNat * 2 ^ 64)

/-- Appends an event to a rank's queue (R252). -/
def State.event (s : State) (r : Nat) (payload : BitVec 128) : State :=
  match s.rank? r with
  | none => s
  | some v =>
    if v.evq.length ≥ 1024 then s.setRank r { v with evOvf := true, evSeq := v.evSeq + 1 }
    else
      let s1 := s.setRank r { v with evq := v.evq ++ [⟨payload, v.evSeq, v.gstep⟩], evSeq := v.evSeq + 1 }
      if v.evq.isEmpty then s1.notify (pkgOf v.home) (evqNote v) else s1

/-- The payload of an event: its type, the fields of bits [63:8] and the high half (R252). -/
def evPayload (type : Nat) (low high : Nat) : BitVec 128 :=
  BitVec.ofNat 128 (type + low % 2 ^ 64 + high * 2 ^ 64)

/-! ### Accumulator ownership and the lease -/

/-- Key of a bank or tile of a core. -/
def unitKey (core j : Nat) : Nat := core * 64 + j

/-- The banks a strand owns on its core, as a mask: in any state, or DRAINING only (R79). -/
def State.ownedMask (s : State) (u : Nat) (drainOnly : Bool) : Word :=
  match s.strand u with
  | none => 0
  | some m => match m.place with
    | none => 0
    | some loc => wd ((List.range 64).foldl (fun acc j =>
        match tabGet s.accOwner (unitKey (locCore loc) j) with
        | some o => if o.uid = u && (!drainOnly || o.draining) then acc + 2 ^ j else acc
        | none => acc) 0)

/-- The strand's hold on the matrix array ends, and its request with it (R57). -/
def State.dropArray (s : State) (u : Nat) : State :=
  { s with
    array := s.array.filter fun e => e.2 ≠ u
    arrayReq := s.arrayReq.filter fun e => e.2 ≠ u }

/-! ### Faults -/

/-- What a stop must wait for: words already issued whose results are still to come (R236, step 2). -/
def Wait.issued : Wait → Bool
  | .reply _ => true
  | .page => true
  | .lease => true
  | _ => false

/-- A multi-part word that has done a part of its work stands at a position (R236). -/
def Strand.partDone (m : Strand) (pos : Nat) : Bool := m.prog.any fun p => p.live && p.pos = pos

/-- A strand has words in flight: a stream that awaits a result, a multi-part word partly done, or a running AST (R53,
R236). -/
def Strand.busy (m : Strand) : Bool :=
  m.c.wait.issued || m.l.wait.issued || m.x.wait.issued || m.s.wait.issued || m.prog.any (·.live) ||
    m.asts.any fun a => !a.stopped

/-- The fault that the frame records (R237): the synchronous one earliest in text order, or else the command fault with
the lowest slot (R241). -/
def Strand.recorded (m : Strand) : Option Noted :=
  match leastBy Noted.pos (m.noted.filter fun n => n.sync) with
  | some n => some n
  | none => leastBy Noted.slot m.noted

/-- The byte address at which a stream resumes (R238). -/
def Strand.fpc (m : Strand) (n : Noted) (t : Stream) : Word :=
  if n.sync && n.stream = t then n.pc else (m.stream t).pc

/-- The fault frame (R89). -/
def Strand.frameOf (m : Strand) (n : Noted) (acc : Word) : Vector Word 9 :=
  #v[wd (n.cause.toNat + n.stream.tag.toNat * 256 + 0x8000), n.addr,
     m.fpc n .c, m.fpc n .l, m.fpc n .x, m.fpc n .s, n.prog, acc,
     if n.sync then 0 else wd (n.slot + 0x80)]

/-- The fault is a TRAP or a SYS, whose word retires (R248). -/
def Noted.retires (n : Noted) : Bool := n.sync && (n.cause = 0x50 || n.cause = 0x51)

/-- A stopped or faulted command goes on at its next chunk, and repeats every later one (R91, R244). -/
def Cmd.resume (k : Cmd) (core : Nat) : Cmd := { k with state := .running, ahead := [], core := core }

/-- The commands of a strand that runs again on a core: as many as the core has room for go on, the lowest slots first; the
others stay stopped until there is room (R3, log 80). -/
def wakeCmds (core : Nat) : Nat → Tab Cmd → Tab Cmd
  | _, [] => []
  | room, (slot, k) :: rest =>
    if k.state = .running then (slot, { k with core := core }) :: wakeCmds core room rest
    else match room with
      | 0 => (slot, { k with state := .stopped, ahead := [], core := core }) :: wakeCmds core 0 rest
      | n + 1 => (slot, k.resume core) :: wakeCmds core n rest

/-- A running command stops at a chunk boundary (R91). -/
def Cmd.stop (c : Cmd) : Cmd := if c.state = .running then { c with state := .stopped } else c

/-- The parts of a strand that a stop changes: commands stopped, frame written, HELD turned to LAPSED, FAULTED
(R236, steps 1 and 3 to 5). A TRAP or SYS retires when its own stop is recorded (R237, R248). -/
def Strand.stopped (m0 : Strand) (n : Noted) (acc : Word) : Strand :=
  let m := if n.retires then m0.retire .c else m0
  { m with
    cmds := m.cmds.map fun e => (e.1, e.2.stop)
    frame := m.frameOf n acc
    noted := []
    lease := match m.lease with
      | .held _ _ => .lapsed
      | l => l
    c := { m.c with wait := .none }
    l := { m.l with wait := .none }
    x := { m.x with wait := .none }
    s := { m.s with wait := .none }
    state := .faulted }

/-- Taking a fault (R236): once nothing that has issued is still in flight, the frame is written, the bank is FAULTED
and one BANK_FAULT event is appended. With nothing noted, or words still in flight, nothing changes. -/
def State.takeFault (s : State) (u : Nat) : State :=
  match s.strand u with
  | none => s
  | some m =>
    match m.recorded, m.place with
    | some n, some loc =>
      if m.busy || m.state = .faulted || m.state = .ended then s else
        let s1 := (s.setStrand u (m.stopped n (s.ownedMask u false))).dropArray u
        let ord := match s.gang? m.gang with
          | some g => g.ordinal
          | none => 0
        s1.event m.rank (evPayload 0x01 (n.cause.toNat * 256 + loc * 65536) (ord % 2 ^ 32))
    | _, _ => s

/-- A word of stream `t` meets a synchronous fault: it does not retire, the fault is noted and the strand stops
(R236, R237). -/
def State.raise (s : State) (u : Nat) (t : Stream) (cause : BitVec 8) (addr prog : Word) : State :=
  match s.strand u with
  | none => s
  | some m =>
    let p := m.stream t
    (s.setStrand u { m with noted := m.noted ++
      [{ sync := true, pos := p.pos, pc := p.pc, slot := 0, stream := t, cause := cause, addr := addr, prog := prog }] }).takeFault u

/-- The causes (R239). -/
def cILLEGAL : BitVec 8 := 0x01
def cSLOT : BitVec 8 := 0x02
def cPRIV : BitVec 8 := 0x03
def cADDR_RANGE : BitVec 8 := 0x10
def cPAGE_NOT_PRESENT : BitVec 8 := 0x11
def cWRITE_PROTECT : BitVec 8 := 0x12
def cPOLDER_LOST : BitVec 8 := 0x13
def cPEER_UNREACHABLE : BitVec 8 := 0x14
def cACC_UNALLOC : BitVec 8 := 0x20
def cACC_NOT_OWNED : BitVec 8 := 0x21
def cLEASE : BitVec 8 := 0x22
def cTILE_CONFIG : BitVec 8 := 0x30
def cALIGN : BitVec 8 := 0x31
def cASYNC : BitVec 8 := 0x40
def cTRAP : BitVec 8 := 0x50
def cSYS : BitVec 8 := 0x51
def cSTALE_STAMP : BitVec 8 := 0x60
def cINDEX_RANGE : BitVec 8 := 0x61

/-- FPROG: kind and detail (R240). -/
def fprog (kind detail : Nat) : Word := wd (detail % 2 ^ 60 + kind * 2 ^ 60)

/-! ### Executing a word -/

/-- A strand can execute words: it is resident, in RUN, and no fault of it awaits its stop (R236, step 1). -/
def Strand.canIssue (m : Strand) : Bool := m.place.isSome && m.state == .run && m.noted.isEmpty

/-- The bank is in RUN, or it is PARKED, where words already issued drain (R478). -/
def BankState.drains : BankState → Bool
  | .run => true
  | .parked _ => true
  | _ => false

/-- The stream can execute its word: the strand can, or the word is one that it has partly done before another one's fault
(R236, step 2) or before the bank was parked (R478). -/
def Strand.mayRun (m : Strand) (t : Stream) : Bool :=
  m.canIssue || (m.place.isSome && m.state.drains && m.partDone (m.stream t).pos)

/-- The checks of R305, steps 2 and 3, and then the word's own entry. `barred` says that R52 or R316 bars the word from
delay slots, `priv` that it is privileged (R315). A stop that has waited for the word takes place after it. -/
def onWord (s : State) (t : Stream) (barred priv : Bool) (body : Nat → Strand → State) :
    Host.Outcome State Fault Refusal :=
  match s.cur with
  | none => .fault .noStrand
  | some (u, _) =>
    match s.strand u with
    | none => .fault .noStrand
    | some m =>
      if m.place.isNone then .fault .noStrand
      else if !m.mayRun t then .next s
      else if barred && (m.stream t).delay ≠ 0 then .next (s.raise u t cSLOT 0 0)
      else if priv && !m.priv then .next (s.raise u t cPRIV 0 0)
      else if m.noted.isEmpty then .next (body u m)
      else .next ((body u m).takeFault u)

/-- A word that only changes its strand, and retires. -/
def onReg (s : State) (t : Stream) (f : Strand → Strand) : Host.Outcome State Fault Refusal :=
  onWord s t false false fun u m => s.setStrand u ((f m).retire t)

/-- The strand's word retires after `s`. -/
def State.done (s : State) (u : Nat) (t : Stream) : State := s.upd u fun m => m.retire t

/-- The strand's stream waits at its word. -/
def State.waitFor (s : State) (u : Nat) (t : Stream) (w : Wait) : State := s.upd u fun m => m.setWait t w

end Sys2Proof.Machine
end

