-- ==== Sys2Proof/Machine/Walk.lean ====
section
/-! DEFINITION. Routes (R254 to R257), page tables and the memory-side TLB (R165 to R177), the checks of R174, and the
scratchpad window (R138, R139, R157). -/

namespace Sys2Proof.Machine

/-! ### Routes -/

/-- The counter-based generator (R118). -/
def cbg (seed layer n : BitVec 32) : BitVec 32 :=
  let key := seed ^^^ (layer * 0x4F1BBCDD#32)
  let x := n ^^^ key
  let x := x ^^^ (x >>> 16)
  let x := x * 0x5A3C96E5#32
  let x := x ^^^ (x >>> 13)
  let x := x * 0x2B714C9D#32
  x ^^^ (x >>> 16)

/-- The valid next hops of a route entry, in order (R254). -/
def validHops (entry : Word) : List Nat := (List.range 4).filter fun i => bit entry (16 + i)

/-- The next hop of a request, as a number 0 to 15: local die in [3:2], port in [1:0] (R256). -/
def nextHop (entry : Word) (src dst : BitVec 12) (a : Nat) : Option Nat :=
  let x := ((src.toNat * 4096 + dst.toNat) ^^^ (a % 2 ^ 32) ^^^ (a / 2 ^ 32)) % 2 ^ 32
  let h := (cbg 0 0 (BitVec.ofNat 32 x)).toNat
  let l := validHops entry
  (l[h % l.length]?).map fun i => fld entry (4 * i + 3) (4 * i)

/-- The package at the far end of a port, as the cables of the fabric give it (log 1). -/
def State.linkOf (s : State) (p : Pkg) (hop : Nat) : Option Pkg :=
  (tabGet s.links (p.toNat * 16 + hop)).map (BitVec.ofNat 10)

def State.route (s : State) (p dest : Pkg) : Word := tabAt (s.pkg p).routes 0 dest.toNat

/-- A package answers: it has not been switched off. -/
def State.alive (s : State) (p : Pkg) : Bool := (s.pkg p).state ≠ .off

/-- What becomes of a flit for package `dst` at package `p` after `hops` links (R255): delivered there, refused, or sent
over a link, which leads nowhere if no cable is attached. -/
inductive Hop where
  | deliver
  | refuse
  | send (dest : Option Pkg)
  deriving DecidableEq, Repr

def State.hop (s : State) (p : Pkg) (src dst : DieKey) (route hops : Nat) : Hop :=
  let e := s.route p (pkgOf dst)
  if p = pkgOf dst && bit e 63 && fld e 22 20 = 0 then .deliver
  else if !bit e 63 || fld e 19 16 = 0 || hops ≥ 6 then .refuse
  else match nextHop e (peerOf src) (peerOf dst) (route / 64 % 2 ^ 46) with
    | none => .refuse
    | some h => .send (s.linkOf p h)

/-- Whether a request reaches its package along the route entries (R255), within 6 links. -/
def State.pathOk (s : State) (src dst : DieKey) (route : Nat) : Nat → Pkg → Nat → Bool
  | 0, _, _ => false
  | fuel + 1, p, hops =>
    match s.hop p src dst route hops with
    | .deliver => s.alive p
    | .refuse => false
    | .send none => false
    | .send (some q) => s.pathOk src dst route fuel q (hops + 1)

/-- A request of die `src` reaches a die from the die at which it stands: in that die's own package over the in-package links
(R21), and in another package when that package is not lost and the routes lead there (R174, orders 5 and 9). A die that
forwards a request uses the request's own source (R256). -/
def State.reachFrom (s : State) (at_ src dst : DieKey) (route : Nat) : Bool :=
  pkgOf at_ = pkgOf dst ||
    (!(s.pkg (pkgOf at_)).lost.contains (pkgOf dst) && s.pathOk src dst route 8 (pkgOf at_) 0)

/-- A die is reached from another. -/
def State.reach (s : State) (src dst : DieKey) (route : Nat) : Bool := s.reachFrom src src dst route

/-! ### Requests held after a change of route -/

/-- A message that asks for something and may be refused on its way; what answers a request is not refused but times out. -/
def Body.asks : Body → Bool
  | .reply _ _ _ _ _ _ => false
  | .refuse _ _ _ _ _ => false
  | .ack _ _ => false
  | .post _ _ => false
  | .cellGrant _ _ _ => false
  | .answer _ _ _ => false
  | .goOn _ _ _ _ => false
  | .lendDone _ _ _ _ => false
  | _ => true

/-- The die that sent the request for which a message stands: the message itself, or an answer to it. -/
def Msg.asker (q : Msg) : DieKey := if q.id = q.req then q.src else q.dst

/-- A message for whose sake later requests of its die wait after a change of route: one that is neither answered nor refused. A
message that its endpoint holds has been taken there (R264). -/
def Msg.unanswered (q : Msg) : Bool :=
  match q.body with
  | .coll _ => !q.arrived
  | .abort _ _ _ => !q.arrived
  | .resend _ => !q.arrived
  | b => q.id ≠ q.req || b.asks

/-- Requests that a die sends to a package from number `n` on are held (R257): the route entry of the package has changed, and a
request that the die sent there before the change is neither answered nor refused (log 48). -/
def State.routeBusy (s : State) (src : DieKey) (dest : Pkg) (n : Nat) : Bool :=
  (tabAt (s.pkg (pkgOf src)).routeHold [] dest.toNat).any fun h =>
    h ≤ n && s.msgs.any fun k => k.req < h && k.asker = src && k.asked = dest && k.unanswered

/-- A request of die `own` that goes from die `a` to die `b` now, without a message of its own, is held (R257): it leaves the package
of `own`, whose route entry has changed. -/
def State.legHeld (s : State) (own a b : DieKey) : Bool :=
  pkgOf a = pkgOf own && pkgOf b ≠ pkgOf own && s.routeBusy own (pkgOf b) s.ids

/-- The transfers of a die's engines are requests of the die; while any are held (R257), the engine goes no further. -/
def State.dieHeld (s : State) (d : DieKey) : Bool :=
  (s.pkg (pkgOf d)).routeHold.any fun e => s.routeBusy d (BitVec.ofNat 10 e.1) s.ids

/-! ### Lent frames -/

/-- An entry covers a frame. -/
def Polder.covers (p : Polder) (frame : Nat) : Bool :=
  p.base.toNat ≤ frame && frame < p.base.toNat + 32 * p.len.toNat

/-- Entry in state ACTIVE or RECLAIMING. -/
def Polder.live? (p : Polder) : Bool := p.state = 2 || p.state = 3

/-- The die has lent frames by an entry of some kind. -/
def Die.lent (d : Die) (f : Polder → Bool) : Bool := d.polders.any fun e => !e.2.borrower && e.2.live? && f e.2

/-- Runs of frames, or of `unit` parts of a frame, without what the die has lent. -/
def Die.unlent (d : Die) (unit : Nat) (l : List Extent) : List Extent :=
  d.polders.foldl (fun acc e =>
    if !e.2.borrower && e.2.live? then extentDel acc (e.2.base.toNat * unit) (32 * e.2.len.toNat * unit) else acc) l

/-- Frames of a lease are used as R191 states: by its job, through the borrower. -/
def Polder.entitles (p : Polder) (job : BitVec 32) (via : DieKey) : Bool := p.job = job && p.borrow = peerOf via

/-- A byte of DRAM lies in frames that its die has lent to others than a job at the die that translates (R186). -/
def State.lentAway (s : State) (job : BitVec 32) (via : DieKey) (addr : Nat) : Bool :=
  addr < 2 ^ 52 && (s.die (BitVec.ofNat 12 (addr / 2 ^ 40))).lent
    fun p => !p.entitles job via && p.covers (addr % 2 ^ 40 / 65536)

/-- The address at which a job writes a byte of DRAM through a die. Frames that their die has lent to another must not be mapped or used
(R186); the device does not check that, and nothing of the borrower changes (R17): the write goes to bytes that nobody else reaches
(log 105). -/
def State.confine (s : State) (job : BitVec 32) (via : DieKey) (addr : Nat) : Nat :=
  if s.lentAway job via addr then (job.toNat + 1) * 2 ^ 75 + addr else addr

/-- Takes a run of frames from a die's pool of one tier (R494), none that the die has lent (R186, log 105). -/
def Die.takeFrames (d : Die) (lpddr : Bool) (count : Nat) : Option (Nat × Die) :=
  if lpddr then (extentTake d.lpddrPool count).map fun f => (f, { d with lpddrPool := extentDel d.lpddrPool f count })
  else (extentTake (d.unlent 1 d.hbmPool) count).map fun f => (f, { d with hbmPool := extentDel d.hbmPool f count })

/-! ### Page tables -/

/-- Bytes of a tier's memory on a die (R169). -/
def tierBytes (lpddr : Bool) : Nat := (if lpddr then Config.lpddrFrames else Config.hbmFrames) * 65536

/-- An 8-byte word of a die's memory; beyond the tier's memory the spec gives no bytes (log 4). -/
def State.physWord (s : State) (d : DieKey) (lpddr : Bool) (off : Nat) : Word :=
  if off + 8 ≤ tierBytes lpddr then wd (s.rd (tierAddr lpddr d.toNat off) 8) else Config.freeWord off

/-- Writes a word of a page table. A table in frames that its die has lent is not written, since what software does there against
R186 changes nothing of the borrower's (R17, log 105). -/
def State.setPhysWord (s : State) (d : DieKey) (lpddr : Bool) (off : Nat) (v : Word) : State :=
  if off + 8 ≤ tierBytes lpddr && !(!lpddr && (s.die d).lent fun p => p.covers (off / 65536)) then
    s.wr (tierAddr lpddr d.toNat off) 8 v.toNat
  else s

/-- Fields of a leaf word (R168). -/
def leafV (e : Word) : Bool := bit e 0
def leafSize (e : Word) : Nat := fld e 2 1
def leafTier (e : Word) : Nat := fld e 4 3
def leafWp (e : Word) : Bool := bit e 5
def leafMode (e : Word) : Nat := fld e 7 6
def leafMti (e : Word) : Nat := fld e 10 8
def leafPeer (e : Word) : BitVec 12 := e.extractLsb' 12 12
def leafFrame (e : Word) : Nat := fld e 55 24
def leafRset (e : Word) : Nat := fld e 63 56

/-- Fields of a leaf that the page engine rewrites. -/
def setLeaf (e : Word) (tier mode : Nat) (peer : BitVec 12) (frame rset : Nat) : Word :=
  wd (e.toNat % 8 + tier * 8 + fld e 5 5 * 32 + mode * 64 + fld e 10 8 * 256 + peer.toNat * 4096 + frame * 2 ^ 24 +
    rset * 2 ^ 56)

/-- 64 KiB units of a page of a size code, and its log2 bytes. -/
def sizeUnits (size : Nat) : Nat := if size = 0 then 1 else if size = 1 then 32 else 16384
def sizeBits (size : Nat) : Nat := if size = 0 then 16 else if size = 1 then 21 else 30

/-- The replica set of an index; entry 0 is always empty (R171). -/
def Die.rset (d : Die) (i : Nat) : List (BitVec 12) := if i = 0 then [] else tabAt d.rsets [] i

/-- A leaf is malformed at the level of a size code (R169). -/
def Die.malformed (d : Die) (e : Word) (size : Nat) : Bool :=
  leafSize e ≠ size || bit e 11 || leafFrame e % sizeUnits size ≠ 0 ||
  (leafTier e = 1 && leafFrame e + sizeUnits size > Config.lpddrFrames) ||
  (leafTier e ≠ 1 && leafFrame e + sizeUnits size > Config.hbmFrames) ||
  (leafTier e = 2 && leafMode e = 3) || (leafMode e = 1 && (d.rset (leafRset e)).isEmpty)

/-- Fields of a table word (R166). -/
def tblV (e : Word) : Bool := bit e 0
def tblTier (e : Word) : Bool := bit e 1
def tblAddr (e : Word) : Nat := fld e 51 8 * 256

/-- A leaf as a walk meets it: its word, size code, and where the word lies. -/
structure LeafAt where
  leaf : Word
  size : Nat
  lpddr : Bool
  at_ : Nat
  deriving DecidableEq, Repr

/-- The slot of a level-2 or level-1 table. -/
def slotIndex (off size : Nat) : Nat := off / 2 ^ sizeBits size % 512

/-- The walk of a space without the check of R169: the first valid leaf in the search order of R167. -/
def State.findLeaf (s : State) (d : DieKey) (job : BitVec 32) (key off : Nat) : Option LeafAt :=
  match ((s.die d).spaces.find? fun e => e.2.job = job && e.2.key = key && bit e.2.root 0) with
  | none => none
  | some (_, sp) =>
    let e3 := s.physWord d (tblTier sp.root) (tblAddr sp.root + 8 * (off / 2 ^ 39 % 8192))
    if !tblV e3 then none else
      let a2 := tblAddr e3 + 16 * slotIndex off 2
      let l2 := s.physWord d (tblTier e3) a2
      let t2 := s.physWord d (tblTier e3) (a2 + 8)
      let big : Option LeafAt := if leafV l2 then some ⟨l2, 2, tblTier e3, a2⟩ else none
      if !tblV t2 then big else
        let a1 := tblAddr t2 + 16 * slotIndex off 1
        let l1 := s.physWord d (tblTier t2) a1
        let t1 := s.physWord d (tblTier t2) (a1 + 8)
        let mid : Option LeafAt := if leafV l1 then some ⟨l1, 1, tblTier t2, a1⟩ else big
        if !tblV t1 then mid else
          let a0 := tblAddr t1 + 8 * (off / 65536 % 32)
          let l0 := s.physWord d (tblTier t1) a0
          if leafV l0 then some ⟨l0, 0, tblTier t1, a0⟩ else mid

/-- `walk` of R167: the leaf that translates an offset, unless it is malformed. -/
def State.walk (s : State) (d : DieKey) (job : BitVec 32) (key off : Nat) : Option LeafAt :=
  match s.findLeaf d job key off with
  | none => none
  | some l => if (s.die d).malformed l.leaf l.size then none else some l

/-- A valid leaf and the offset at which its page begins. -/
structure PageLeaf where
  off : Nat
  at_ : LeafAt
  deriving DecidableEq, Repr

/-- The valid leaves of a level-0 table. -/
def State.leaves0 (s : State) (d : DieKey) (lp : Bool) (base off : Nat) : List PageLeaf :=
  (List.range 32).filterMap fun i =>
    let e := s.physWord d lp (base + 8 * i)
    if leafV e then some ⟨off + 65536 * i, ⟨e, 0, lp, base + 8 * i⟩⟩ else none

/-- The valid leaves of a level-1 table and of the tables under it. -/
def State.leaves1 (s : State) (d : DieKey) (lp : Bool) (base off : Nat) : List PageLeaf :=
  (List.range 512).flatMap fun i =>
    let a := base + 16 * i
    let o := off + 2 ^ 21 * i
    let e := s.physWord d lp a
    let t := s.physWord d lp (a + 8)
    (if leafV e then [⟨o, ⟨e, 1, lp, a⟩⟩] else []) ++ if tblV t then s.leaves0 d (tblTier t) (tblAddr t) o else []

/-- The valid leaves of a level-2 table and of the tables under it. -/
def State.leaves2 (s : State) (d : DieKey) (lp : Bool) (base off : Nat) : List PageLeaf :=
  (List.range 512).flatMap fun i =>
    let a := base + 16 * i
    let o := off + 2 ^ 30 * i
    let e := s.physWord d lp a
    let t := s.physWord d lp (a + 8)
    (if leafV e then [⟨o, ⟨e, 2, lp, a⟩⟩] else []) ++ if tblV t then s.leaves1 d (tblTier t) (tblAddr t) o else []

/-- The root of a space on a die. -/
def State.spaceRoot (s : State) (d : DieKey) (job : BitVec 32) (key : Nat) : Option Word :=
  ((s.die d).spaces.find? fun e => e.2.job = job && e.2.key = key && bit e.2.root 0).map fun e => e.2.root

/-- The valid leaves of a space, those that a smaller leaf hides included. -/
def State.leaves (s : State) (d : DieKey) (job : BitVec 32) (key : Nat) : List PageLeaf :=
  match s.spaceRoot d job key with
  | none => []
  | some root => (List.range 8192).flatMap fun i =>
      let t := s.physWord d (tblTier root) (tblAddr root + 8 * i)
      if tblV t then s.leaves2 d (tblTier t) (tblAddr t) (2 ^ 39 * i) else []

/-- The die that holds the byte of an offset under a leaf of a die, and the byte's address in the model's memory (R170). -/
def leafByte (d : DieKey) (leaf : Word) (size off : Nat) : DieKey × Nat :=
  let a := leafFrame leaf * 65536 + off % 2 ^ sizeBits size
  if leafTier leaf = 0 then (d, hbmAddr d.toNat a)
  else if leafTier leaf = 1 then (d, lpddrAddr d.toNat a)
  else (dieOfPeer (leafPeer leaf), hbmAddr (dieOfPeer (leafPeer leaf)).toNat a)

/-- The level-0 tables under a level-1 table, as tier, address and bytes. -/
def State.tables1 (s : State) (d : DieKey) (lp : Bool) (base : Nat) : List (Bool × Nat × Nat) :=
  (List.range 512).filterMap fun i =>
    let t := s.physWord d lp (base + 16 * i + 8)
    if tblV t then some (tblTier t, tblAddr t, 256) else none

/-- A level-1 table's tables under a level-2 table, and those under them. -/
def State.tables2 (s : State) (d : DieKey) (lp : Bool) (base : Nat) : List (Bool × Nat × Nat) :=
  (List.range 512).flatMap fun i =>
    let t := s.physWord d lp (base + 16 * i + 8)
    if tblV t then (tblTier t, tblAddr t, 8192) :: s.tables1 d (tblTier t) (tblAddr t) else []

/-- Every page table of a space's root: the level-3 table and those under it, whether or not they hold a valid leaf (R166). -/
def State.tables (s : State) (d : DieKey) (root : Word) : List (Bool × Nat × Nat) :=
  (tblTier root, tblAddr root, 65536) :: (List.range 8192).flatMap fun i =>
    let t := s.physWord d (tblTier root) (tblAddr root + 8 * i)
    if tblV t then (tblTier t, tblAddr t, 8192) :: s.tables2 d (tblTier t) (tblAddr t) else []

/-- The die and the byte offset of a checkpoint region, in the form of R286. -/
def regionDie (base : Word) : DieKey := BitVec.setWidth 12 base
def regionOff (base : Word) : Nat := fld base 51 16 * 65536

/-- The die and the place in its memory of the frames that a leaf of a die names: HBM4E or LPDDR-6, first frame, count. -/
def leafFrames (d : DieKey) (leaf : Word) (size : Nat) : DieKey × Bool × Nat × Nat :=
  (if leafTier leaf ≥ 2 then dieOfPeer (leafPeer leaf) else d, leafTier leaf = 1, leafFrame leaf, sizeUnits size)

/-- Some frames have come to another rank or job than the one of a space (R17): a space that is neither this one nor its
job's shared space maps them, they hold page tables of any space, their die has lent them to others than the job at the die `via` that
translates, or a shard lies in them, sealed or of a snapshot that is still open. -/
def State.othersFrames (s : State) (via : DieKey) (job : BitVec 32) (key : Nat) (f : DieKey × Bool × Nat × Nat) : Bool :=
  let meets := fun (g : DieKey × Bool × Nat × Nat) =>
    g.1 = f.1 && g.2.1 = f.2.1 && g.2.2.1 < f.2.2.1 + f.2.2.2 && f.2.2.1 < g.2.2.1 + g.2.2.2
  let table := fun (d : DieKey) (t : Bool × Nat × Nat) =>
    d = f.1 && t.1 = f.2.1 && t.2.1 < (f.2.2.1 + f.2.2.2) * 65536 && f.2.2.1 * 65536 < t.2.1 + t.2.2
  (s.dies.any fun e =>
    let d : DieKey := BitVec.ofNat 12 e.1
    e.2.spaces.any fun x =>
      (bit x.2.root 0 && (s.tables d x.2.root).any (table d)) ||
      (!(x.2.job = job && (x.2.key = key || x.2.key = 0x10000)) &&
        (s.leaves d x.2.job x.2.key).any fun p => meets (leafFrames d p.at_.leaf p.at_.size))) ||
  ((s.die f.1).lent fun p => !p.entitles job via && meets (f.1, false, p.base.toNat, 32 * p.len.toNat)) ||
  (s.pkgs.any fun e => e.2.shards.any fun h => meets (h.die, true, h.base / 65536, h.units)) ||
  s.ranks.any fun e => e.2.snap.any fun n => meets (regionDie n.req.base, true, regionOff n.req.base / 65536, n.next)

/-- The bytes to which a die has translated an offset are no longer those of the offset, and have come to somebody else (R17, log
78). -/
def State.strayed (s : State) (via dst : DieKey) (job : BitVec 32) (key off addr : Nat) : Bool :=
  let a := addr % 2 ^ 75
  (match s.walk via job key off with
    | some l => leafByte via l.leaf l.size off ≠ (dst, a)
    | none => true) &&
  s.othersFrames via job key (dst, 2 ^ 64 ≤ a, a % 2 ^ 40 / 65536, 1)

/-- The TLB entry that a lookup hits: 64 KiB first, then 2 MiB, then 1 GiB (R175). -/
def Die.tlbHit (d : Die) (job : BitVec 32) (key off : Nat) : Option TlbEntry :=
  let hit := fun (size : Nat) => d.tlb.find? fun e =>
    e.job = job && e.key = key && e.size.toNat = size && e.page = off / 2 ^ sizeBits size
  match hit 0 with
  | some e => some e
  | none => match hit 1 with
    | some e => some e
    | none => hit 2

/-- Entries of the TLB of a size (R175). -/
def tlbCapacity (size : Nat) : Nat := if size = 0 then 8192 else if size = 1 then 4096 else 2048

/-- Fills the TLB with a walk's leaf. Where the size's entries are all in use the oldest leaves: which one goes changes
no result (R175, R176). -/
def Die.tlbFill (d : Die) (e : TlbEntry) : Die :=
  let same := d.tlb.filter fun x => x.size = e.size
  let rest := if same.length ≥ tlbCapacity e.size.toNat then
      match same.head? with
      | none => d.tlb
      | some old => d.tlb.erase old
    else d.tlb
  { d with tlb := rest ++ [e] }

/-- Translates at a die: through the TLB, or by a walk that fills it. Where the TLB's leaf is no longer the walk's, the
invalidation of R176 is still to come, and which of the two is used is open (log 4), as long as the frames of the old leaf
have come to nobody else (R17, log 78). -/
def State.translate (s : State) (d : DieKey) (job : BitVec 32) (key off : Nat) : State × Option (Word × Nat) :=
  let now := (s.walk d job key off).map fun l => (l.leaf, l.size)
  match (s.die d).tlbHit job key off with
  | some e =>
    if now = some (e.leaf, e.size.toNat) then (s, now)
    else if Config.staleHit s.nfree && !s.othersFrames d job key (leafFrames d e.leaf e.size.toNat) then ({ s with nfree := s.nfree + 1 }, some (e.leaf, e.size.toNat))
    else ({ s with nfree := s.nfree + 1 }, now)
  | none =>
    match now with
    | none => (s, none)
    | some (leaf, size) =>
      (s.updDie d fun v => v.tlbFill
        { job := job, key := key, page := off / 2 ^ sizeBits size, size := BitVec.ofNat 2 size, leaf := leaf }, now)

/-- Removes the entries that cover an offset (R177, page form). -/
def State.invalPage (s : State) (d : DieKey) (job : BitVec 32) (key off : Nat) : State :=
  s.updDie d fun v => { v with tlb := v.tlb.filter fun e =>
    !(e.job = job && e.key = key && e.page = off / 2 ^ sizeBits e.size.toNat) }

/-- Removes the entries of a space (R177, space form). -/
def State.invalSpace (s : State) (d : DieKey) (job : BitVec 32) (key : Nat) : State :=
  s.updDie d fun v => { v with tlb := v.tlb.filter fun e => !(e.job = job && e.key = key) }

/-! ### Pages held, swept, snapshotted, pre-copied -/

/-- A hold that makes writes to the page stall (R173, R181, R182, R194). -/
def Holder.stalls : Holder → Bool
  | .procedure _ _ b _ => b
  | .demotion _ _ => true
  | .hwMigration _ _ => true

/-- The hold on the page of an offset. -/
def Die.heldAt (d : Die) (job : BitVec 32) (key off : Nat) : Option Held :=
  d.held.find? fun h => h.job = job && h.key = key && h.off ≤ off && off < h.off + 2 ^ sizeBits h.size.toNat

/-- The virtual page numbers at which a rank names an offset of a space on a die (R162). -/
def Rank.pagesOf (r : Rank) (d : DieKey) (job : BitVec 32) (key off : Nat) : List Nat :=
  if r.job ≠ job then []
  else if key = 0x10000 then
    ((natRange 1 29).filter fun i => bit (vget r.dmap 0 i) 63 && BitVec.setWidth 12 (vget r.dmap 0 i) = d).map fun i =>
      (i * 2 ^ 52 + off) / 65536
  else (if key = r.vrank.toNat then [off / 65536] else []) ++
    (if off < 2 ^ 36 then [(30 * 2 ^ 52 + key * 2 ^ 36 + off) / 65536] else [])

/-- The rank whose sweeps have yet to finish the page of an offset, and the page's number (R135). -/
def State.unswept (s : State) (d : DieKey) (job : BitVec 32) (key off : Nat) : Option (Nat × Nat) :=
  s.ranks.findSome? fun e =>
    if e.2.sweeps.isEmpty then none else
      ((e.2.pagesOf d job key off).find? fun p => e.2.sweeps.any fun w => extentMeets w.todo p 1).map fun p => (e.1, p)

/-- Asks the sweeps that have yet to finish a page for it next (R135). -/
def State.askSweep (s : State) (r page : Nat) : State :=
  let ask := fun (w : Sweep) =>
    if w.ahead.contains page || !extentMeets w.todo page 1 then w else { w with ahead := w.ahead ++ [page] }
  s.updRank r fun v => { v with sweeps := v.sweeps.map ask }

/-- The state with what another one has asked its sweeps and snapshots for. -/
def State.asksOf (s x : State) : State :=
  { s with ranks := s.ranks.map fun e => match x.rank? e.1 with
      | none => e
      | some r => (e.1, { e.2 with sweeps := r.sweeps, snap := r.snap }) }

/-- What an operation comes to that may have to wait for a page: its result, or a state in which the page has been asked for. -/
abbrev Try (α : Type) := Except State α

/-- The operation is done, or nothing is but that the page it waits for comes next (R135, R273). -/
def State.attempt (s : State) (r : Try State) : State :=
  match r with
  | .ok x => x
  | .error x => s.asksOf x

/-- As `unswept`, for the first of `n` 64 KiB pages that has yet to be swept. -/
def State.unsweptIn (s : State) (d : DieKey) (job : BitVec 32) (key off n : Nat) : Option (Nat × Nat) :=
  if s.ranks.all fun e => e.2.sweeps.isEmpty then none
  else (List.range n).findSome? fun i => s.unswept d job key (off + 65536 * i)

/-- The state without any sweep, in which a sweep or a snapshot makes its own access. -/
def State.noSweeps (s : State) : State := { s with ranks := s.ranks.map fun e => (e.1, { e.2 with sweeps := [] }) }

/-- The state `x` with the sweeps of the ranks of `s`. -/
def State.sweepsOf (x s : State) : State :=
  { x with ranks := x.ranks.map fun e => (e.1, { e.2 with sweeps := ((s.rank? e.1).map (·.sweeps)).getD [] }) }

/-- The rank whose snapshot has yet to copy the private page of an offset (R273). -/
def State.uncopied (s : State) (d : DieKey) (job : BitVec 32) (key off : Nat) : Option Nat :=
  match s.ranks.find? fun e => e.2.job = job && e.2.vrank.toNat = key && e.2.home = d with
  | none => none
  | some (r, v) => match v.snap with
    | none => none
    | some n => if n.todo.contains (off / 65536) then some r else none

/-- As `uncopied`, for the first of `n` 64 KiB pages that a snapshot has yet to copy, with its number. -/
def State.uncopiedIn (s : State) (d : DieKey) (job : BitVec 32) (key off n : Nat) : Option (Nat × Nat) :=
  if s.ranks.all fun e => e.2.snap.isNone then none
  else (List.range n).findSome? fun i => (s.uncopied d job key (off + 65536 * i)).map fun r => (r, off / 65536 + i)

/-- Moves a page to the head of the snapshot's copies (R273). -/
def State.askSnap (s : State) (r page : Nat) : State :=
  s.updRank r fun v => { v with snap := v.snap.map fun n => { n with todo := page :: n.todo.filter (· ≠ page) } }

/-- A procedure or a copy that holds a page of a space waits for the requests that the space's leaves have translated (R173, R181,
R194). -/
def State.spaceHeld (s : State) (via : DieKey) (job : BitVec 32) (key : Nat) : Bool :=
  (s.die via).held.any fun h => h.job = job && h.key = key

/-- A request that a die has translated before waits at the die that holds the bytes for a sweep that has yet to do its page (R135), and
a write for a snapshot that has yet to copy it (R273): the state in which the page has been asked for. It does not wait for the sweep
while something that waits for it holds a page of its space: it was translated before the sweep began, and the sweep waits for what
holds the page (R183, log 43). -/
def State.pageWait (s : State) (via : DieKey) (job : BitVec 32) (key off : Nat) (write : Bool) : Option State :=
  match (if s.spaceHeld via job key then none else s.unswept via job key off) with
  | some (r, page) => some (s.askSweep r page)
  | none => (if write then s.uncopied via job key off else none).map fun r => s.askSnap r (off / 65536)

/-- Marks a private page as written during a pre-copy (R268). -/
def State.markDirty (s : State) (job : BitVec 32) (key off : Nat) : State :=
  { s with ranks := s.ranks.map fun e =>
      if e.2.job = job && e.2.vrank.toNat = key then
        (e.1, { e.2 with precopy := e.2.precopy.map fun p =>
          { p with dirty := natIns p.dirty (off / 65536) } })
      else e }

/-! ### Request counts (R173) -/

/-- A count enters the cache of 4,096 pages with four requesters each (R173); a count that leaves the cache is lost, and the
oldest page's or requester's does. -/
def Die.putCount (v : Die) (c : MigCount) : Die :=
  let page := fun (x : MigCount) => (x.job, x.key, x.page)
  let here := v.counts.filter fun x => page x = page c && x.home ≠ c.home
  let others := v.counts.filter fun x => page x ≠ page c
  let keep := match others.head? with
    | none => others
    | some x => if (others.map page).eraseDups.length < 4096 then others else others.filter fun y => page y ≠ page x
  { v with counts := keep ++ (if here.length ≥ 4 then here.drop 1 else here) ++ [c] }

/-- The counts of a page restart at zero (R173). -/
def Die.zeroCounts (v : Die) (job : BitVec 32) (key page : Nat) : Die :=
  { v with counts := v.counts.filter fun x => !(x.job = job && x.key = key && x.page = page) }

/-- Counts a request to a 64 KiB MIGRATE page for a requester's home die; at the threshold the page copy begins, if the
requester's pool gives a frame, or else that count restarts at zero. A threshold of 0 disables the copy and not the count. While
something holds the page the requests count on, and the copy begins with the first one after the hold, or after the threshold is
lowered to a count already reached (log 77). The frame is taken from the requester's home die whether or not a route leads there
(log 107). -/
def State.countMigrate (s : State) (d : DieKey) (job : BitVec 32) (key off : Nat) (home : DieKey) (leaf : Word) : State :=
  let v := s.die d
  let limit := (vget v.mthr 0 (leafMti leaf)).toNat
  if leafMode leaf ≠ 2 || leafSize leaf ≠ 0 then s else
    let page := off / 65536
    let old := (v.counts.find? fun c => c.job = job && c.key = key && c.page = page && c.home = home).elim 0 (·.count)
    if limit = 0 || old + 1 < limit || (v.heldAt job key off).isSome then s.setDie d (v.putCount ⟨job, key, page, home, old + 1⟩)
    else
      match (s.die home).takeFrames false 1 with
      | none => s.setDie d (v.putCount ⟨job, key, page, home, 0⟩)
      | some (f, _) =>
        let s1 := s.setDie d { v.putCount ⟨job, key, page, home, old + 1⟩ with
          held := v.held ++ [⟨job, key, page * 65536, 0, .hwMigration home f⟩] }
        s1.updDie home fun h => { h with hbmPool := extentDel h.hbmPool f 1 }

/-! ### Polders (R191) -/

/-- The borrower may use the frame (R174, order 8). -/
def Die.borrows (d : Die) (lender : BitVec 12) (frame : Nat) : Bool :=
  d.polders.any fun e => e.2.borrower && e.2.live? && e.2.lender = lender && e.2.covers frame

/-- A lender-side entry serves its region: ACTIVE, or RECLAIMING until DLEFT reaches 0 (R191, R197). -/
def Polder.serves (p : Polder) : Bool := !p.borrower && (p.state = 2 || (p.state = 3 && p.dleft ≠ 0))

/-- The lender serves the frame to the borrower (R191). -/
def Die.lends (d : Die) (borrower : BitVec 12) (frame : Nat) : Bool :=
  d.polders.any fun e => e.2.serves && e.2.borrow = borrower && e.2.covers frame

/-! ### Access to device memory -/

/-- The space, the die and the offset that an address names (R162), or the cause of R174, orders 1 and 4. Domain 31 is
not of this kind. -/
structure Spot where
  die : DieKey
  key : Nat
  off : Nat
  deriving DecidableEq, Repr

/-- The checks of R174, orders 7 to 9, for the leaf that translates, and where the bytes lie; a write stalls on a page
that is being moved, and on one that a snapshot has still to copy. `own` is the die that sent the request (R256). A request to a MIGRATE
page is counted (R172) once order 7 is passed, also one that order 8 or 9 refuses; a write that WP refuses is not (log 106). -/
def State.useLeaf (s1 : State) (p : Spot) (job : BitVec 32) (home own : DieKey) (write : Bool) (leaf : Word) (size : Nat) :
    State × Res Target :=
  if write && ((s1.die p.die).heldAt job p.key p.off).any (fun h => h.by_.stalls) then (s1, .stall .none)
  else if write && (leafWp leaf || leafMode leaf = 1) then (s1, .fault cWRITE_PROTECT)
  else match (if write then s1.uncopied p.die job p.key p.off else none) with
    | some r => (s1.askSnap r (p.off / 65536), .stall .none)
    | none =>
      let (die, addr) := leafByte p.die leaf size p.off
      let s2 := s1.countMigrate p.die job p.key p.off home leaf
      let s3 := if write then s2.markDirty job p.key p.off else s2
      if leafTier leaf ≤ 1 then (s3, .ok ⟨p.die, p.die, addr, false, true⟩)
      else if leafTier leaf = 2 && !(s3.die p.die).borrows (leafPeer leaf) (addr % 2 ^ 40 / 65536) then
        (s3, .fault cPOLDER_LOST)
      else if !s3.reachFrom p.die own die (addr % 2 ^ 40) then (s3, .fault cPEER_UNREACHABLE)
      else (s3, .ok ⟨die, p.die, addr, leafTier leaf = 2, false⟩)

/-- Whether the target die of an access through a leaf of die `d` is not `own` (R174); a polder page is always away. -/
def leafAway (leaf : Word) (d own : DieKey) : Bool :=
  leafTier leaf = 2 || (if leafTier leaf = 3 then dieOfPeer (leafPeer leaf) else d) ≠ own

/-- Translating and checking at the die of a space: orders 6 to 9 of R174, and the stalls of R135, R173, R181, R182,
R194 and R273. `home` is the requester's home die and `own` the die it asks from. The last part tells whether the access
is away from `own` in the sense of R174: on a POLDER leaf always, and else when its target die is another. -/
def State.locateLeaf (s : State) (p : Spot) (job : BitVec 32) (home own : DieKey) (write : Bool) :
    State × Res Target × Bool :=
  match s.unswept p.die job p.key p.off with
  | some (r, page) => (s.askSweep r page, .stall .none, p.die ≠ own)
  | none =>
    match s.translate p.die job p.key p.off with
    | (s1, none) => (s1, .fault cPAGE_NOT_PRESENT, p.die ≠ own)
    | (s1, some (leaf, size)) =>
      let out := s1.useLeaf p job home own write leaf size
      (out.1, out.2, leafAway leaf p.die own)

/-- As `locateLeaf`, where the kind of the leaf does not matter. -/
def State.locate (s : State) (p : Spot) (job : BitVec 32) (home own : DieKey) (write : Bool) : State × Res Target :=
  let out := s.locateLeaf p job home own write
  (out.1, out.2.1)

/-- An access of die `own` goes from the die that has translated it to the die that holds the bytes (R170, R191), or is held after a
change of route (R257); a write stays within what its job may write (R17). -/
def State.serveAt (s : State) (job : BitVec 32) (own : DieKey) (write : Bool) (t : Target) : Res Target :=
  if s.legHeld own t.via t.die then .stall .none
  else if t.polder && !(s.die t.die).lends (peerOf t.via) (t.addr % 2 ^ 40 / 65536) then .fault cPOLDER_LOST
  else .ok (if write then { t with addr := s.confine job t.via t.addr } else t)

/-- One 8-byte entry of a rank's endpoint table, through the rank's own translation (R258): ADDR_RANGE where it is not valid or
cannot be read (R174, order 4). -/
def State.endpointEntry (s : State) (c : Client) (v : Nat) : State × Res Word :=
  match s.locate ⟨c.home, c.vrank.toNat, (c.endp.toNat + 8 * v) % 2 ^ 52⟩ c.job c.home c.home false with
  | (s1, .ok t) => match s1.serveAt c.job c.home false t with
    | .ok u =>
      let e := wd (s1.rd u.addr 8)
      (s1, if bit e 63 then .ok e else .fault cADDR_RANGE)
    | .stall w => (s1, .stall w)
    | .fault _ => (s1, .fault cADDR_RANGE)
  | (s1, .fault _) => (s1, .fault cADDR_RANGE)
  | (s1, .stall w) => (s1, .stall w)

/-- The die at which a request for a space is served: the former home of a rank forwards a request for the rank's private
space once, until the rank's next boundary, and then refuses it (R164). -/
def State.forwardOf (s : State) (d : DieKey) (job : BitVec 32) (key : Nat) : Option DieKey :=
  match (s.die d).forwards.find? fun f => key < 65536 && f.rank = rankKey job (BitVec.ofNat 16 key) with
  | some f => if f.live then some f.dest else none
  | none => some d

/-- The die that serves a request of die `own` which has reached a die (R164): a former home sends it on once, over a route. -/
def State.servedAt (s : State) (own d : DieKey) (job : BitVec 32) (key route : Nat) : Option DieKey :=
  match s.forwardOf d job key with
  | none => none
  | some e => if e ≠ d && !s.reachFrom d own e route then none else some e

/-- Orders 1 and 4 of R174 for an address outside domain 31: the space it names. -/
def State.resolve (s : State) (c : Client) (va : Word) : State × Res Spot :=
  let dom := fld va 56 52
  let off := fld va 51 0
  if fld va 63 57 ≠ 0 then (s, .fault cADDR_RANGE)
  else if dom = 0 then (s, .ok ⟨c.home, c.vrank.toNat, off⟩)
  else if dom ≤ 29 then
    let e := vget c.dmap 0 dom
    if bit e 63 then (s, .ok ⟨BitVec.setWidth 12 e, 0x10000, off⟩) else (s, .fault cADDR_RANGE)
  else
    let v := off / 2 ^ 36
    if v > c.nrankm1.toNat then (s, .fault cADDR_RANGE) else
      match s.endpointEntry c v with
      | (s1, .ok e) => (s1, .ok ⟨BitVec.setWidth 12 e, v, off % 2 ^ 36⟩)
      | (s1, .fault e) => (s1, .fault e)
      | (s1, .stall w) => (s1, .stall w)

/-! ### Scratchpads -/

/-- The segment of a holder at a core or cluster. -/
def segFind (t : Tab SegRec) (lo n rank holder lseg : Nat) : Option (Nat × SegRec) :=
  t.find? fun e => lo ≤ e.1 && e.1 < lo + n && e.2.rank = rank && e.2.holder = holder && e.2.lseg = lseg

/-- LS segments of the gang's region: LSSEG of the nest record (R221). -/
def State.lsRegion (s : State) (g : Nat) : Nat :=
  match s.gang? g with
  | none => 0
  | some v => match s.nest? v.nest with
    | none => 0
    | some n => fld (vget n.words 0 1) 32 28

/-- A byte of the scratchpad window (R138, R139): its address, a fault, or the stall of an unbound segment (R157). -/
def State.scratch (s : State) (c : Client) (va : Word) : Res Nat :=
  let off := fld va 51 0
  match c.place with
  | none => .fault cADDR_RANGE
  | some loc =>
    if off < 0x1800000 / 16 then
      let seg := off / 65536
      if seg ≥ s.lsRegion c.gang then .fault cADDR_RANGE else
        match segFind s.lsSeg (locCore loc * 32) 24 c.rank c.gang seg with
        | some (k, r) => if r.state = .active then .ok (lsAddr (locCore loc) (k % 32) (off % 65536))
          else .stall (.segment va)
        | none => .stall (.segment va)
    else if 0x1000000 ≤ off && off < 0x2000000 then
      let seg := (off - 0x1000000) / 65536
      match s.rank? c.rank with
      | none => .fault cADDR_RANGE
      | some r => if seg ≥ r.csseg then .fault cADDR_RANGE else
        match segFind s.csSeg (locCluster loc * 256) 256 c.rank c.lp seg with
        | some (k, e) => if e.state = .active then .ok (csAddr (locCluster loc) (k % 256) (off % 65536))
          else .stall (.segment va)
        | none => .stall (.segment va)
    else if 0x4000000 ≤ off && off < 0x8000000 then
      match s.rank? c.rank with
      | none => .fault cADDR_RANGE
      | some r => match r.ds[(off - 0x4000000) / 65536]? with
        | none => .fault cADDR_RANGE
        | some k => .ok (dsAddr r.home.toNat k (off % 65536))
    else .fault cADDR_RANGE

/-! ### One access of a whole, aligned unit, wherever it lies -/

/-- Who a strand is to the memory system. -/
def State.clientOf (s : State) (m : Strand) : Option Client :=
  match s.rank? m.rank, m.place, s.gang? m.gang with
  | some r, some loc, some g => some
    { rank := m.rank, job := r.job, vrank := r.vrank, nrankm1 := r.nrankm1, endp := r.endpbase, home := r.home
      dmap := m.dmap, die := locDie loc, place := some loc, gang := m.gang, lp := g.lp }
  | _, _, _ => none

/-- A rank as a client of its own home die: for Sluice commands and for the control plane. -/
def Rank.client (r : Rank) (k : Nat) : Client :=
  { rank := k, job := r.job, vrank := r.vrank, nrankm1 := r.nrankm1, endp := r.endpbase, home := r.home
    dmap := r.dmap, die := r.home, place := none, gang := 0, lp := 0 }

/-- The checks of R174 for `n` bytes at an address, in their order, and where the bytes lie. A request to another die is
answered within the step (log 10), once requests held after a change of route may go (R257). The last part names the die that answers when the target die of the access is not the
strand's own, so that a failure of orders 5 to 9 is that die's (R174, R242). -/
def State.accessFar (s : State) (c : Client) (va : Word) (n : Nat) (write : Bool) : State × Res Target × Option DieKey :=
  if fld va 63 57 ≠ 0 then (s, .fault cADDR_RANGE, none)
  else if va.toNat % n ≠ 0 then (s, .fault cALIGN, none)
  else if fld va 56 52 = 31 then
    match s.scratch c va with
    | .ok a => (s, .ok ⟨c.die, c.die, a, false, true⟩, none)
    | .fault e => (s, .fault e, none)
    | .stall w => (s, .stall w, none)
  else match s.resolve c va with
    | (s1, .fault e) => (s1, .fault e, none)
    | (s1, .stall w) => (s1, .stall w, none)
    | (s1, .ok p) =>
      let at_ := if p.die = c.die then none else some p.die
      if s1.legHeld c.die c.die p.die then (s1, .stall .none, none)
      else if !s1.reach c.die p.die p.off then (s1, .fault cPEER_UNREACHABLE, at_) else
        match s1.servedAt c.die p.die c.job p.key p.off with
        | none => (s1, .fault cPEER_UNREACHABLE, at_)
        | some d =>
          if s1.legHeld c.die p.die d then (s1, .stall .none, none)
          else match s1.locateLeaf { p with die := d } c.job c.home c.die write with
          | (s2, .fault e, far) => (s2, .fault e, if far then some d else none)
          | (s2, .stall w, _) => (s2, .stall w, none)
          | (s2, .ok t, far) => (s2, s2.serveAt c.job c.die write t, if far then some t.die else none)

/-- As `accessFar`, where it does not matter which die answers. -/
def State.access (s : State) (c : Client) (va : Word) (n : Nat) (write : Bool) : State × Res Target :=
  let out := s.accessFar c va n write
  (out.1, out.2.1)

/-- Reads `n` bytes of one aligned unit. -/
def State.readVa (s : State) (c : Client) (va : Word) (n : Nat) : State × Res Nat :=
  match s.access c va n false with
  | (s1, .ok t) => (s1, .ok (s1.rd t.addr n))
  | (s1, .fault e) => (s1, .fault e)
  | (s1, .stall w) => (s1, .stall w)

/-- Writes `n` bytes of one aligned unit. -/
def State.writeVa (s : State) (c : Client) (va : Word) (n v : Nat) : State × Res Unit :=
  match s.access c va n true with
  | (s1, .ok t) => (s1.wr t.addr n v, .ok ())
  | (s1, .fault e) => (s1, .fault e)
  | (s1, .stall w) => (s1, .stall w)

end Sys2Proof.Machine
end

