-- ==== Sys2Proof/Machine/Link.lean ====
section
/-! DEFINITION. Messages between dies: sending, which one may be handled next, and what a strand still has on its way
(R163, R243, R253 to R257). -/

namespace Sys2Proof.Machine

/-- Sends a message. Within a package it is at its die at once (R21); between packages it starts at hop 0 (R255). `fwd` says that it
has been sent on already (R164, R170). -/
def State.sendOn (s : State) (src dst : DieKey) (route : Nat) (fwd : Bool) (body : Body) : State :=
  { s with
    msgs := s.msgs ++ [{ id := s.ids, src := src, dst := dst, at_ := pkgOf src, hops := 0, arrived := pkgOf src == pkgOf dst
                         route := route, forwarded := fwd, age := 0, req := s.ids, asked := pkgOf dst, body := body }]
    ids := s.ids + 1 }

/-- Sends a message that nobody has sent on yet. -/
def State.send (s : State) (src dst : DieKey) (route : Nat) (body : Body) : State := s.sendOn src dst route false body

/-- The links crossed by a message that stands at a package switched off: more than any message crosses (R255). -/
def lostHops : Nat := 99

/-- Answers a message: the answer goes back on the request's route, and its age counts from the request (R257). -/
def State.reply (s : State) (q : Msg) (body : Body) : State :=
  { s with
    msgs := (s.msgs.filter fun m => m.id ≠ q.id) ++
      [{ id := s.ids, src := q.dst, dst := q.src, at_ := pkgOf q.dst, hops := 0, arrived := pkgOf q.dst == pkgOf q.src
         route := q.route, forwarded := false, age := q.age, req := q.req, asked := q.asked, body := body }]
    ids := s.ids + 1 }

/-- The message with its target die and body after a forwarding (R164, R170). -/
def Msg.onward (q : Msg) (d : DieKey) (route : Nat) (body : Body) : Msg :=
  { q with dst := d, at_ := pkgOf q.dst, hops := 0, arrived := pkgOf q.dst == pkgOf d, route := route, forwarded := true
           body := body }

def State.msg? (s : State) (i : Nat) : Option Msg := s.msgs.find? fun m => m.id = i

def State.dropMsg (s : State) (i : Nat) : State := { s with msgs := s.msgs.filter fun m => m.id ≠ i }

def State.setMsg (s : State) (v : Msg) : State := { s with msgs := s.msgs.map fun m => if m.id = v.id then v else m }

/-- Messages of one die to one 64-byte block of one target are handled in order (R256). -/
def State.msgTurn (s : State) (m : Msg) : Bool :=
  !(s.msgs.any fun k => k.id < m.id && k.src = m.src && k.dst = m.dst && k.route / 64 = m.route / 64 &&
    k.forwarded = m.forwarded)

/-- The message that a row about a message acts on, when it has reached its die and its turn has come. -/
def State.subjectMsg (s : State) : Option Msg :=
  match s.msg? s.subject with
  | none => none
  | some m => if m.arrived && s.msgTurn m && s.alive (pkgOf m.dst) then some m else none

/-- A write of R242 that a message stands for: on its way, or answered and not yet heard of. -/
def Body.writeOf : Body → Option Nat
  | .access a => match a.op with
    | .store => some a.uid
    | .amo _ ret => if ret then none else some a.uid
    | _ => none
  | .polder a _ => match a.op with
    | .store => some a.uid
    | .amo _ ret => if ret then none else some a.uid
    | _ => none
  | .ack u _ => some u
  | .post u _ => some u
  | _ => none

/-- The strand has remote writes neither made nor posted (R243). -/
def State.writesOut (s : State) (u : Nat) : Bool := s.msgs.any fun m => m.body.writeOf = some u

/-- Every earlier word of every stream has retired and performed its memory effects, asynchronous commands excluded
(R206, R212, R243), for the word at which stream `t` stands. -/
def State.quiet (s : State) (u : Nat) (m : Strand) (t : Stream) : Bool :=
  let p := (m.stream t).pos
  p ≤ m.c.pos && p ≤ m.l.pos && p ≤ m.x.pos && p ≤ m.s.pos &&
  !(m.asts.any fun a => a.pos < p) && !s.writesOut u

/-- Every earlier word of the stream itself has performed its scratchpad effects (R55, R144): of all words only a running
AST may still have some to perform. -/
def Strand.streamQuiet (m : Strand) (t : Stream) : Bool :=
  t ≠ .s || !(m.asts.any fun a => a.pos < m.s.pos)

end Sys2Proof.Machine
end

