-- ==== Sys2Proof/Machine/Num.lean ====
section
/-! DEFINITION. Number formats, exact values, decoding and the one rounding procedure (R97 to R115). A finite value is
exact: a sign, a quotient of naturals and a power of two. -/

namespace Sys2Proof.Machine

/-- An exact value: NaN, an infinity, or (−1)^neg × num / den × 2^e with `den` not zero. -/
inductive Val where
  | nan
  | inf (neg : Bool)
  | fin (neg : Bool) (num den : Nat) (e : Int)
  deriving DecidableEq, Repr

/-- Rounding modes (R108): RNE, RTZ, RUP, RDN, RSTO. -/
inductive Mode where
  | rne
  | rtz
  | rup
  | rdn
  | rsto
  deriving DecidableEq, Repr

/-- Code 0 to 4 (R84). -/
def Mode.ofCode (n : Nat) : Mode :=
  if n = 1 then .rtz else if n = 2 then .rup else if n = 3 then .rdn else if n = 4 then .rsto else .rne

/-- A format as rounding sees it (R97, R99, R102): fraction bits, least exponent, bias, the largest magnitudes of either
sign as multiples of a power of two, and what becomes of infinities and NaN. -/
structure Fmt where
  isInt : Bool
  width : Nat
  frac : Nat
  emin : Int
  bias : Int
  topM : Nat
  topE : Int
  negM : Nat
  hasInf : Bool
  ieee : Bool
  nan : Nat
  infBits : Nat
  deriving DecidableEq, Repr

/-- A binary floating format. -/
def fltFmt (width frac : Nat) (emin bias : Int) (topM : Nat) (topE : Int) (hasInf ieee : Bool) (nan infBits : Nat) : Fmt :=
  { isInt := false, width := width, frac := frac, emin := emin, bias := bias, topM := topM, topE := topE, negM := topM
    hasInf := hasInf, ieee := ieee, nan := nan, infBits := infBits }

/-- An integer format with its largest and least value. -/
def intFmt (width top neg : Nat) : Fmt :=
  { isInt := true, width := width, frac := 0, emin := 0, bias := 0, topM := top, topE := 0, negM := neg
    hasInf := false, ieee := false, nan := 0, infBits := 0 }

def fFP32 : Fmt := fltFmt 32 23 (-126) 127 (2 ^ 24 - 1) 104 true true 0x7FC00000 0x7F800000
def fBF16 : Fmt := fltFmt 16 7 (-126) 127 255 120 true true 0x7FC0 0x7F80
def fFP16 : Fmt := fltFmt 16 10 (-14) 15 2047 5 true true 0x7E00 0x7C00
def fE4M3 : Fmt := fltFmt 8 3 (-6) 7 14 5 false false 0x7F 0
def fE5M2 : Fmt := fltFmt 8 2 (-14) 15 7 13 true false 0x7E 0x7C
def fE3M2 : Fmt := fltFmt 6 2 (-2) 3 7 2 false false 0 0
def fE2M3 : Fmt := fltFmt 6 3 0 1 15 (-1) false false 0 0
def fE2M1 : Fmt := fltFmt 4 1 0 1 3 1 false false 0 0
def fAX64 : Fmt := fltFmt 64 55 (-126) 127 (2 ^ 56 - 1) 72 true true 0x7FC0000000000000 0x7F80000000000000

/-- The format of a code (R97). CB2 and DKW64 elements are not of this kind; their code stands for AX64 here. -/
def fmtOf (code : Nat) : Fmt :=
  match code with
  | 0x0 => fFP32
  | 0x1 => fBF16
  | 0x2 => fFP16
  | 0x3 => fE4M3
  | 0x4 => fE5M2
  | 0x5 => fE3M2
  | 0x6 => fE2M3
  | 0x7 => fE2M1
  | 0x8 => intFmt 8 127 128
  | 0x9 => intFmt 8 255 0
  | 0xA => intFmt 4 7 8
  | 0xC => intFmt 32 (2 ^ 31 - 1) (2 ^ 31)
  | 0xD => intFmt 16 32767 32768
  | _ => fAX64

/-- Bits of one element in a tile or in memory (R97). A CB2 code takes 16 bits for 8 weights. -/
def fmtWidth (code : Nat) : Nat :=
  if code = 0xB then 2 else if code = 0xE || code = 0xF then 64 else (fmtOf code).width

/-! ### Exact arithmetic -/

/-- `n × 2^k`. -/
def shl2 (n : Nat) (k : Int) : Nat := n * 2 ^ k.toNat

/-- A natural times a power of two. -/
def Val.dyadic (neg : Bool) (n : Nat) (e : Int) : Val := .fin neg n 1 e

def Val.zero (neg : Bool) : Val := .fin neg 0 1 0

def Val.ofInt (i : Int) : Val := .fin (i < 0) i.natAbs 1 0

def Val.isZero : Val → Bool
  | .fin _ n _ _ => n = 0
  | _ => false

def Val.isNan : Val → Bool
  | .nan => true
  | _ => false

def Val.isInf : Val → Bool
  | .inf _ => true
  | _ => false

def Val.neg : Val → Bool
  | .nan => false
  | .inf b => b
  | .fin b _ _ _ => b

def Val.flip : Val → Val
  | .nan => .nan
  | .inf b => .inf (!b)
  | .fin b n d e => .fin (!b) n d e

def Val.abs : Val → Val
  | .nan => .nan
  | .inf _ => .inf false
  | .fin _ n d e => .fin false n d e

/-- The exact product, with the special cases of R100. -/
def Val.mul (a b : Val) : Val :=
  match a, b with
  | .nan, _ => .nan
  | _, .nan => .nan
  | .inf x, .inf y => .inf (x != y)
  | .inf x, .fin y n _ _ => if n = 0 then .nan else .inf (x != y)
  | .fin y n _ _, .inf x => if n = 0 then .nan else .inf (x != y)
  | .fin x n d e, .fin y m k f => .fin (x != y) (n * m) (d * k) (e + f)

/-- The exact sum, with the sign rules of R109 for a zero (`rdn`: the rounding mode is RDN) and R100. -/
def Val.add (rdn : Bool) (a b : Val) : Val :=
  match a, b with
  | .nan, _ => .nan
  | _, .nan => .nan
  | .inf x, .inf y => if x = y then .inf x else .nan
  | .inf x, .fin _ _ _ _ => .inf x
  | .fin _ _ _ _, .inf x => .inf x
  | .fin x n d e, .fin y m k f =>
    if n = 0 && m = 0 then .zero (if x = y then x else rdn)
    else
      let b := min e f
      let p : Int := (if x then -1 else 1) * (shl2 (n * k) (e - b) : Nat)
      let q : Int := (if y then -1 else 1) * (shl2 (m * d) (f - b) : Nat)
      let t := p + q
      if t = 0 then .zero rdn else .fin (t < 0) t.natAbs (d * k) b

/-- The magnitudes of two finite values compared, as naturals over a common scale. -/
def magPair (n d : Nat) (e : Int) (m k : Nat) (f : Int) : Nat × Nat :=
  let b := min e f
  (shl2 (n * k) (e - b), shl2 (m * d) (f - b))

/-- Exact order of two values that are not NaN, with +0 above −0 when `zeros` asks for it: `a < b`. -/
def Val.lt (zeros : Bool) (a b : Val) : Bool :=
  match a, b with
  | .nan, _ => false
  | _, .nan => false
  | .inf x, .inf y => x && !y
  | .inf x, .fin _ _ _ _ => x
  | .fin _ _ _ _, .inf y => !y
  | .fin x n d e, .fin y m k f =>
    if n = 0 && m = 0 then zeros && x && !y
    else
      let (p, q) := magPair n d e m k f
      if n = 0 then !y
      else if m = 0 then x
      else if x && !y then true
      else if !x && y then false
      else if x then q < p else p < q

def Val.eq (a b : Val) : Bool :=
  match a, b with
  | .nan, _ => false
  | _, .nan => false
  | _, _ => !a.lt false b && !b.lt false a

/-- `floor(log2 (n / d))` for `n`, `d` not zero. -/
def log2Ratio (n d : Nat) : Int :=
  let g : Int := (n.log2 : Int) - (d.log2 : Int)
  if shl2 d g ≤ shl2 n (-g) then g else g - 1

/-! ### Rounding (R112 to R114) -/

/-- A rounded result: its bits, whether it counts as an overflow, and whether it sets IOVF. -/
structure Rounded where
  bits : Nat
  ovf : Bool
  iovf : Bool
  deriving DecidableEq, Repr

/-- The encoding of ± q × 2^u for a member of the grid within range. -/
def Fmt.encode (f : Fmt) (neg : Bool) (q : Nat) (u : Int) : Nat :=
  if f.isInt then
    let v := shl2 q u
    if neg && v ≠ 0 then 2 ^ f.width - v else v
  else
    let sign := if neg then 2 ^ (f.width - 1) else 0
    if q = 0 then sign
    else if q < 2 ^ f.frac then sign + q
    else
      let k := q.log2
      let frac := (if k ≤ f.frac then q * 2 ^ (f.frac - k) else q / 2 ^ (k - f.frac)) - 2 ^ f.frac
      let field := ((k : Int) + u + f.bias).toNat
      sign + field * 2 ^ f.frac + frac

/-- Whether q × 2^u lies above M × 2^E. -/
def above (q : Nat) (u : Int) (m : Nat) (e : Int) : Bool := shl2 m (e - u) < shl2 q (u - e)

/-- `overflow(f, m, sg)` (R114). -/
def Fmt.overflow (f : Fmt) (m : Mode) (neg ieeeMode : Bool) : Rounded :=
  let sign := if neg then 2 ^ (f.width - 1) else 0
  let top := if neg then f.encode true f.negM f.topE else f.encode false f.topM f.topE
  if f.ieee && ieeeMode then
    let toInf := match m with
      | .rne => true
      | .rsto => true
      | .rup => !neg
      | .rdn => neg
      | .rtz => false
    ⟨if toInf then sign + f.infBits else top, false, true⟩
  else ⟨top, true, false⟩

/-- The grid member below a magnitude n/d × 2^e, as a multiple of 2^u, with the remainder as a fraction r / s. -/
def Fmt.below (f : Fmt) (n d : Nat) (e : Int) : Nat × Int × Nat × Nat :=
  let u : Int := if f.isInt then 0 else
    if n = 0 then f.emin - f.frac else max (log2Ratio n d + e) f.emin - f.frac
  let num := shl2 n (e - u)
  let den := shl2 d (u - e)
  (num / den, u, num % den, den)

/-- `rnd(v, f, m)` (R112); `lfsr` is the lane's LFSR state, which only RSTO reads. -/
def Fmt.rnd (f : Fmt) (m : Mode) (ieeeMode : Bool) (lfsr : BitVec 32) (v : Val) : Rounded :=
  match v with
  | .nan =>
    if f.isInt || f.nan = 0 then ⟨0, true, false⟩ else ⟨f.nan, false, false⟩
  | .inf neg =>
    if f.hasInf then ⟨(if neg then 2 ^ (f.width - 1) else 0) + f.infBits, false, false⟩
    else ⟨if neg then f.encode true f.negM f.topE else f.encode false f.topM f.topE, true, false⟩
  | .fin neg n d e =>
    let (lo, u, r, s) := f.below n d e
    let away := match m with
      | .rne => s < 2 * r || (2 * r = s && (lo % 2 = 1 || above (lo + 1) u f.topM f.topE))
      | .rtz => false
      | .rup => r ≠ 0 && !neg
      | .rdn => r ≠ 0 && neg
      | .rsto => lfsr.toNat ≤ r * 2 ^ 32 / s
    let q := if away then lo + 1 else lo
    if above q u (if neg then f.negM else f.topM) f.topE then f.overflow m neg ieeeMode
    else ⟨f.encode (neg && !(f.isInt && q = 0)) q u, false, false⟩

/-- One step of a lane's LFSR (R110). -/
def lfsrNext (s : BitVec 32) : BitVec 32 :=
  (s <<< 1) ||| (BitVec.setWidth 32 (BitVec.ofBool (s.getLsbD 31 ^^ s.getLsbD 21 ^^ s.getLsbD 1 ^^ s.getLsbD 0)))

/-- `rnd_ax` (R106): RNE to AX64, with an infinity beyond the largest finite value. -/
def rndAx (v : Val) : Nat := (fAX64.rnd .rne true 0 v).bits

/-! ### Decoding (R99, R102, R104, R105) -/

/-- A floating element. -/
def Fmt.decFloat (f : Fmt) (bits : Nat) : Val :=
  let neg := bits / 2 ^ (f.width - 1) % 2 = 1
  let ew := f.width - 1 - f.frac
  let field := bits / 2 ^ f.frac % 2 ^ ew
  let frac := bits % 2 ^ f.frac
  if f.hasInf && field = 2 ^ ew - 1 then (if frac = 0 then .inf neg else .nan)
  else if !f.hasInf && f.nan ≠ 0 && bits % 2 ^ (f.width - 1) = f.nan then .nan
  else if field = 0 then .dyadic neg frac (f.emin - f.frac)
  else .dyadic neg (2 ^ f.frac + frac) ((field : Int) - f.bias - f.frac)

/-- An element of a format code, without a scale (R99, R102). -/
def decElem (code bits : Nat) : Val :=
  let f := fmtOf code
  if f.isInt then
    if code = 0x9 then .ofInt bits
    else .ofInt (if bits < 2 ^ (f.width - 1) then (bits : Int) else (bits : Int) - 2 ^ f.width)
  else f.decFloat bits

/-- A block scale (R104): E8M0 or UE4M3. -/
def decScale (ue4m3 : Bool) (byte : Nat) : Val :=
  if ue4m3 then
    if byte = 0 then .zero false else if byte ≥ 0x7F then .nan else fE4M3.decFloat byte
  else if byte = 0xFF then .nan else .dyadic false 1 ((byte : Int) - 127)

/-- An element times its scale (R104): a NaN scale gives NaN, a zero scale a zero of the element's own sign. -/
def Val.scaled (v scale : Val) : Val :=
  match scale with
  | .nan => .nan
  | .inf _ => .nan
  | .fin _ n _ _ =>
    if n = 0 then (match v with
      | .fin neg _ _ _ => .zero neg
      | _ => .nan)
    else v.mul scale

/-- FP32 bits as a value, and a value rounded to FP32. -/
def dec32 (b : Nat) : Val := fFP32.decFloat b

/-- The greater of two values by R263: exact, +0 above −0, a NaN gives NaN. -/
def Val.maxV (a b : Val) : Val := if a.isNan || b.isNan then .nan else if a.lt true b then b else a

/-- The lesser of two values by R263. -/
def Val.minV (a b : Val) : Val := if a.isNan || b.isNan then .nan else if b.lt true a then b else a

/-! ### Matrix summation (R116) -/

/-- The sum of terms of one entry and the entry itself, as R116 orders the special cases; the value to be rounded. -/
def matrixSum (c : Val) (terms : List Val) : Val :=
  let all := c :: terms
  let hasPos := all.any fun v => v = .inf false
  let hasNeg := all.any fun v => v = .inf true
  if all.any Val.isNan || (hasPos && hasNeg) then .nan
  else if hasPos then .inf false
  else if hasNeg then .inf true
  else
    let live := terms.filter fun v => !v.isZero
    let sum : Val :=
      if live.isEmpty then .zero (terms.all Val.neg)
      else
        let exps := live.map fun v => match v with
          | .fin _ n d e => log2Ratio n d + e
          | _ => 0
        let u := exps.foldl max (exps.headD 0) - 61
        let t : Int := live.foldl (fun acc v => match v with
          | .fin neg n d e =>
            let q : Int := (shl2 n (e - u) / shl2 d (u - e) : Nat)
            if neg then acc - q else acc + q
          | _ => acc) 0
        if t = 0 then .zero false else .dyadic (t < 0) t.natAbs u
    Val.add false c sum

end Sys2Proof.Machine
end

