-- ==== Sys2Proof/Machine/Operands.lean ====
section
/-! DEFINITION. Operand forms: ranges of memory, engine writes (R141), tiles by name with their configuration, elements and
scales (R81, R98, R103, R155), and accumulator entries (R152). -/

namespace Sys2Proof.Machine

/-! ### Ranges of memory -/

/-- A range cut at 4 KiB boundaries. -/
def pieces (va : Nat) (len : Nat) : Nat → List (Nat × Nat)
  | 0 => []
  | fuel + 1 =>
    if len = 0 then [] else
      let n := min len (4096 - va % 4096)
      (va, n) :: pieces (va + n) (len - n) fuel

/-- The cut of a range of `len` bytes at an address. -/
def cut (va : Word) (len : Nat) : List (Nat × Nat) := pieces va.toNat len (len / 4096 + 2)

/-- Checks each part of a range by R174, in ascending order. -/
def State.checkParts (s : State) (c : Client) (write : Bool) : List (Nat × Nat) → State × RangeRes
  | [] => (s, .ok [])
  | (va, n) :: rest =>
    match s.access c (wd va) 1 write with
    | (s1, .fault e) => (s1, .fault e (wd va) c.die)
    | (s1, .stall w) => (s1, .stall w)
    | (s1, .ok t) => match s1.checkParts c write rest with
      | (s2, .ok l) => (s2, .ok (⟨t.addr, n, t.die == c.die && t.local_⟩ :: l))
      | (s2, r) => (s2, r)

/-- Checks a whole range. -/
def State.checkRange (s : State) (c : Client) (va : Word) (len : Nat) (write : Bool) : State × RangeRes :=
  s.checkParts c write (cut va len)

/-- Reads the parts of a range as one little-endian number. -/
def State.readParts (s : State) (l : List Part) : Nat :=
  l.foldr (fun p acc => s.rd p.addr p.bytes + 2 ^ (8 * p.bytes) * acc) 0

/-- Sets the full-empty bit of every granule that a write touches, where it lies in LS (R141). -/
def State.fillGranules (s : State) (addr n : Nat) : State :=
  match granuleOf addr with
  | none => s
  | some g0 => (natRange g0 ((addr % 16 + n + 15) / 16)).foldl State.setFull s

/-- An engine write (R141): the bytes, and then the full-empty bits. -/
def State.engineWrite (s : State) (addr n v : Nat) : State := (s.wr addr n v).fillGranules addr n

/-- Writes a little-endian number over the parts of a range, as engine writes. -/
def State.writeParts (s : State) (v : Nat) : List Part → State
  | [] => s
  | p :: rest => (s.engineWrite p.addr p.bytes v).writeParts (v / 2 ^ (8 * p.bytes)) rest

/-! ### The LS region of the gang -/

/-- The first byte of a range that lies outside the LS region of a gang (R377). -/
def State.lsOutside (s : State) (gang : Nat) (va : Word) (len : Nat) : Option Word :=
  let lim := s.lsRegion gang * 65536
  let off := fld va 51 0
  if fld va 63 52 ≠ 31 || off ≥ lim then some va
  else if off + len > lim then some (wd (31 * 2 ^ 52 + lim))
  else none

/-- The granules of a 16-byte aligned LS range, or the stall of an unbound segment (R157). -/
def State.lsGranules (s : State) (c : Client) (va : Word) (len : Nat) : Res (List Nat) :=
  (List.range (len / 16)).foldl (fun acc i => match acc with
    | .ok l => match s.scratch c (va + wd (16 * i)) with
      | .ok a => match granuleOf a with
        | some g => .ok (l ++ [g])
        | none => .fault cADDR_RANGE
      | .fault e => .fault e
      | .stall w => .stall w
    | r => r) (.ok [])

/-- The address of an LS object at an offset of the strand's region: the scratchpad window at the offset (R138). -/
def lsVa (off : Nat) : Word := wd (31 * 2 ^ 52 + off)

/-! ### Tiles -/

/-- The window slot that a tile name denotes at a rotation (R155); none for a name beyond the window. -/
def Strand.slot (m : Strand) (rot : Field) (n : Field) : Option Nat :=
  if n.toNat ≥ m.size then none
  else if n.toNat < m.nrot then some ((n.toNat + rot.toNat) % m.nrot) else some n.toNat

/-- A tile as a word meets it: window slot, physical tile key, and its configuration (R81). -/
structure Tile where
  slot : Nat
  key : Nat
  cfg : Word
  deriving DecidableEq, Repr

/-- The tile that a name denotes at the word where stream `t` stands. -/
def Strand.tile (m : Strand) (t : Stream) (n : Field) : Option Tile :=
  match m.slot (m.rotAt t) n, m.place with
  | some k, some loc => some ⟨k, unitKey (locCore loc) (m.base + k), vget m.tcfg 0 k⟩
  | _, _ => none

/-- Fields of a configuration (R81). -/
def cfgRows (c : Word) : Nat := fld c 6 0
def cfgCols (c : Word) : Nat := fld c 18 8
def cfgFmt (c : Word) : Nat := fld c 23 20
def cfgScaled (c : Word) : Bool := bit c 24
def cfgUe4m3 (c : Word) : Bool := bit c 25
def cfgSptr (c : Word) : Nat := fld c 48 32

def Tile.rows (t : Tile) : Nat := cfgRows t.cfg
def Tile.cols (t : Tile) : Nat := cfgCols t.cfg
def Tile.fmt (t : Tile) : Nat := cfgFmt t.cfg
def Tile.scaled (t : Tile) : Bool := cfgScaled t.cfg

/-- Width of one element, weights for CB2 (R82). -/
def cfgWidth (fmt : Nat) : Nat := fmtWidth fmt

/-- The tile is configured (R81, R82). -/
def Tile.configured (t : Tile) : Bool := t.rows ≠ 0

/-- A typed operand: configured, with a format that the instruction accepts. -/
def Tile.ok (t : Tile) (fmts : List Nat) : Bool := t.configured && fmts.contains t.fmt

def State.image (s : State) (t : Tile) : BitVec 32768 := tabAt s.tiles 0 t.key

def State.setImage (s : State) (t : Tile) (v : BitVec 32768) : State := { s with tiles := tabSet s.tiles 0 t.key v }

/-- Element `k` of an image, in storage order (R98). -/
def elemBits (img : BitVec 32768) (width k : Nat) : Nat := (img.extractLsb' (k * width) width).toNat

/-- Puts a field of bits into an image. -/
def putBits {n : Nat} (img : BitVec n) (pos width v : Nat) : BitVec n :=
  let hole : BitVec n := BitVec.ofNat n ((2 ^ width - 1) * 2 ^ pos)
  (img &&& ~~~hole) ||| BitVec.ofNat n (v % 2 ^ width * 2 ^ pos)

/-- The number of the scale block of an element (R103). -/
def blockOf (fmt k : Nat) : Nat := if fmt = 0xB then k / 64 else k / 32

/-- Bytes of a tile's scale plane (R82). -/
def planeBytes (cfg : Word) : Nat :=
  ceilDiv (cfgRows cfg * cfgCols cfg) (if cfgFmt cfg = 0xB then 64 else 32)

/-- The scale plane of a tile through the LS region of the strand's gang (R103): the bytes, the first byte beyond the
region, or the stall of an unbound segment. -/
def State.scalePlane (s : State) (c : Client) (t : Tile) : RangeRes :=
  if !t.scaled then .ok [] else
    let base := cfgSptr t.cfg * 16
    let n := planeBytes t.cfg
    match s.lsOutside c.gang (lsVa base) n with
    | some a => .fault cADDR_RANGE a c.die
    | none => (s.checkRange c (lsVa base) n false).2

/-- The scale of an element, from the plane read as a number (R103, R104). -/
def Tile.scaleOf (t : Tile) (plane : Nat) (k : Nat) : Val :=
  if !t.scaled then .dyadic false 1 0
  else decScale (cfgUe4m3 t.cfg) (plane / 2 ^ (8 * blockOf t.fmt k) % 256)

/-- A CB2 weight (R105): weight `k` of the image with the core's codebook. -/
def cb2Weight (book : BitVec 8192) (img : BitVec 32768) (k : Nat) : Val :=
  let code := elemBits img 16 (k / 8)
  let j := k % 8
  let mag := (book.extractLsb' (code % 256 * 32 + 4 * j) 4).toNat
  .dyadic (code / 2 ^ (8 + j) % 2 = 1) mag (-2)

/-- `dec(A, i, k)`: element `k` in storage order, with its scale applied (R98 to R105, R125). -/
def Tile.dec (t : Tile) (book : BitVec 8192) (img : BitVec 32768) (plane k : Nat) : Val :=
  let v := if t.fmt = 0xB then cb2Weight book img k else decElem t.fmt (elemBits img (fmtWidth t.fmt) k)
  if t.scaled then v.scaled (t.scaleOf plane k) else v

/-- Some block of the tile's first `n` elements has a zero scale, so that decoding them sets ZSS (R104). -/
def Tile.zeroScale (t : Tile) (plane n : Nat) : Bool :=
  t.scaled && (List.range (ceilDiv n (if t.fmt = 0xB then 64 else 32))).any fun b =>
    (decScale (cfgUe4m3 t.cfg) (plane / 2 ^ (8 * b) % 256)).isZero

/-! ### Status of tiles (R83, R115) -/

/-- Adds to OVF, which stops at 0xFFFF, and sets ZSS and IOVF. -/
def Strand.status (m : Strand) (slot ovf : Nat) (zss iovf : Bool) : Strand :=
  let w := vget m.tstat 0 slot
  let n := min 0xFFFF (fld w 15 0 + ovf)
  { m with tstat := vset m.tstat slot (wd (n + b2n (bit w 16 || zss) * 2 ^ 16 + b2n (bit w 17 || iovf) * 2 ^ 17)) }

/-! ### Accumulator banks (R152, R153) -/

/-- Entry (r, c) of a bank. -/
def bankEntry (b : BitVec 65536) (r c : Nat) : Nat := (b.extractLsb' (64 * (64 * r + c)) 64).toNat

def setBankEntry (b : BitVec 65536) (r c v : Nat) : BitVec 65536 := putBits b (64 * (64 * r + c)) 64 v

def State.bank (s : State) (core j : Nat) : BitVec 65536 := tabAt s.accs 0 (unitKey core j)

def State.setBank (s : State) (core j : Nat) (v : BitVec 65536) : State :=
  { s with accs := tabSet s.accs 0 (unitKey core j) v }

/-- The check of a word that names bank `j` (R153): the cause that stops it. -/
def State.bankCheck (s : State) (u core j : Nat) : Option (BitVec 8) :=
  match tabGet s.accOwner (unitKey core j) with
  | none => some cACC_UNALLOC
  | some o => if o.uid ≠ u then some cACC_NOT_OWNED else if o.draining then some cACC_UNALLOC else none

/-- Checks banks in ascending order: the first failure, with the bank's name. -/
def State.banksCheck (s : State) (u core j n : Nat) : Option (BitVec 8 × Word) :=
  (natRange j n).findSome? fun k => (s.bankCheck u core k).map fun e => (e, wd k)

end Sys2Proof.Machine
end

