-- ==== Sys2Proof/Machine/VecOps.lean ====
section
/-! DEFINITION. What the vector words share (R110, R111, R447 to R451): the checks of their tiles, the loop over enabled
elements with counts and LFSR steps, and the loop over enabled lanes. -/

namespace Sys2Proof.Machine

/-- The formats of the table of R447: floating vector elements, integer vector elements, and both. -/
def fltFmts : List Nat := [0x0, 0x1, 0x2]
def intFmts : List Nat := [0xC, 0xD]
def vecFmts : List Nat := fltFmts ++ intFmts

/-- A tile's name, configuration and format (R451); the error is the name to which the check is charged. -/
def Strand.vTile (m : Strand) (n : Field) (fmts : List Nat) : Except Field Tile :=
  match m.tile .x n with
  | none => .error n
  | some t => if t.ok fmts then .ok t else .error n

/-- Two tiles have one shape. -/
def Tile.sameShape (a b : Tile) : Bool := a.rows == b.rows && a.cols == b.cols

/-- A source that must have the format and shape of another tile (R448). -/
def Strand.vLike (m : Strand) (d : Tile) (n : Field) : Except Field Tile :=
  match m.vTile n [d.fmt] with
  | .error e => .error e
  | .ok t => if t.sameShape d then .ok t else .error n

/-- A tile of a lane word: only its name is checked (R449). -/
def Strand.vName (m : Strand) (n : Field) : Except Field Tile :=
  match m.tile .x n with
  | none => .error n
  | some t => .ok t

/-- The mode that a rounding field names (R313): code 7 is RMODE.RND. -/
def Strand.mode (m : Strand) (code : BitVec 3) : Mode := Mode.ofCode (if code = 7 then m.rnd.toNat else code.toNat)

/-- A vector word: `f` has the strand, or the name of the tile that fails its check (R451). -/
def onVec (s : State) (f : Nat → Strand → Except Field State) : Host.Outcome State Fault Refusal :=
  onWord s .x false false fun u m =>
    match f u m with
    | .error n => s.raise u .x cTILE_CONFIG (wd n.toNat) 0
    | .ok s1 => s1

/-! ### Lanes -/

/-- The LFSR of a lane (R110). -/
def lfsrOf (lanes : BitVec 32768) (lane : Nat) : BitVec 32 := unit32 lanes lane

/-- Steps a lane's LFSR. -/
def stepLane (lanes : BitVec 32768) (lane : Nat) : BitVec 32768 :=
  putBits lanes (32 * lane) 32 (lfsrNext (lfsrOf lanes lane)).toNat

/-- The lane of an element: the one that holds its least significant bit (R98). -/
def laneOf (width k : Nat) : Nat := k * width / 32

/-- The low bits of an image replaced, the rest kept. -/
def lowBits (img : BitVec 32768) (n v : Nat) : BitVec 32768 :=
  BitVec.ofNat 32768 (img.toNat / 2 ^ n * 2 ^ n + v % 2 ^ n)

/-! ### Element words -/

/-- What a loop over elements has gathered: the element values so far, last first, the lanes, counts and IOVF. -/
structure ElemAcc where
  out : List Nat
  lanes : BitVec 32768
  ovf : Nat
  iovf : Bool
  deriving DecidableEq, Repr

/-- One element: a value with its record, and whether it stepped its lane's LFSR. -/
structure Elem where
  r : Rounded
  rounded : Bool
  deriving DecidableEq, Repr

/-- A value that is no rounding and is not counted. -/
def Elem.plain (bits : Nat) : Elem := ⟨⟨bits, false, false⟩, false⟩

/-- An element that `rnd` rounds (R109, R112). -/
def Elem.rnd (f : Fmt) (mode : Mode) (ieee : Bool) (lfsr : BitVec 32) (v : Val) : Elem := ⟨f.rnd mode ieee lfsr v, true⟩

/-- The loop over the slots of a destination (R448, R450): `f` gives an enabled element from its slot and its lane's LFSR;
a disabled element keeps its bits. -/
def elemLoop (old : BitVec 32768) (mask : BitVec 1024) (width n : Nat) (rsto : Bool) (f : Nat → BitVec 32 → Elem)
    (lanes : BitVec 32768) : ElemAcc :=
  (List.range n).foldl (fun acc k =>
    let lane := laneOf width k
    if mask.getLsbD lane then
      let e := f k (lfsrOf acc.lanes lane)
      { out := e.r.bits :: acc.out
        lanes := if rsto && e.rounded then stepLane acc.lanes lane else acc.lanes
        ovf := acc.ovf + b2n e.r.ovf
        iovf := acc.iovf || e.r.iovf }
    else { acc with out := elemBits old width k :: acc.out })
    ⟨[], lanes, 0, false⟩

/-- Elements of a tile (R448). -/
def Tile.count (t : Tile) : Nat := t.rows * t.cols

/-- Writes an element loop's results: image, lanes, and the destination's status word (R115). -/
def State.elems (s : State) (u : Nat) (m : Strand) (d : Tile) (mode : Mode) (f : Nat → BitVec 32 → Elem) : State :=
  let w := cfgWidth d.fmt
  let old := s.image d
  let acc := elemLoop old m.mask w d.count (mode == .rsto) f m.lanes
  (s.setImage d (lowBits old (w * d.count) (packNat w acc.out.reverse))).upd u fun k =>
    { k with lanes := acc.lanes }.status d.slot acc.ovf false acc.iovf

/-- A three-operand element word over one format; `f` has the mode, the format and elements a, b, d of a slot. -/
def onElems (s : State) (d a b : Field) (fmts : List Nat) (code : BitVec 3)
    (f : Strand → Mode → Fmt → BitVec 32 → Val → Val → Val → Elem) : Host.Outcome State Fault Refusal :=
  onVec s fun u m => do
    let td ← m.vTile d fmts
    let ta ← m.vLike td a
    let tb ← m.vLike td b
    let w := cfgWidth td.fmt
    let (ia, ib, id) := (s.image ta, s.image tb, s.image td)
    let mode := m.mode code
    let at_ := fun (i : BitVec 32768) (k : Nat) => decElem td.fmt (elemBits i w k)
    .ok ((s.elems u m td mode fun k l => f m mode (fmtOf td.fmt) l (at_ ia k) (at_ ib k) (at_ id k)).done u .x)

/-- As `onElems`, with the raw element bits. -/
def onRaw (s : State) (d a b : Field) (fmts : List Nat) (ok : Tile → Bool) (f : Nat → Nat → Nat → Elem) :
    Host.Outcome State Fault Refusal :=
  onVec s fun u m => do
    let td ← m.vTile d fmts
    if !ok td then .error d
    let ta ← m.vLike td a
    let tb ← m.vLike td b
    let w := cfgWidth td.fmt
    let (ia, ib) := (s.image ta, s.image tb)
    .ok ((s.elems u m td .rne fun k _ => f td.fmt (elemBits ia w k) (elemBits ib w k)).done u .x)

/-! ### Lane words -/

/-- The image in which every enabled lane holds `f` of its number, and the others keep their bits (R449, R450). -/
def laneLoop (old : BitVec 32768) (mask : BitVec 1024) (f : Nat → Nat) : BitVec 32768 :=
  BitVec.ofNat 32768 (packNat 32 ((List.range 1024).map fun l =>
    if mask.getLsbD l then f l else (unit32 old l).toNat))

/-- A lane word on tiles d and a; `f` has the source image and a lane's number. -/
def onLanes (s : State) (d a : Field) (f : Strand → BitVec 32768 → Nat → Nat) : Host.Outcome State Fault Refusal :=
  onVec s fun u m => do
    let td ← m.vName d
    let ta ← m.vName a
    let ia := s.image ta
    .ok ((s.setImage td (laneLoop (s.image td) m.mask (f m ia))).done u .x)

/-- A lane word on tiles d, a and b. -/
def onLanes2 (s : State) (d a b : Field) (mask : Strand → BitVec 1024) (f : Strand → BitVec 32 → BitVec 32 → Nat → BitVec 32) :
    Host.Outcome State Fault Refusal :=
  onVec s fun u m => do
    let td ← m.vName d
    let ta ← m.vName a
    let tb ← m.vName b
    let (ia, ib) := (s.image ta, s.image tb)
    .ok ((s.setImage td (laneLoop (s.image td) (mask m)
      fun l => (f m (unit32 ia l) (unit32 ib l) l).toNat)).done u .x)

/-! ### Scale bytes -/

/-- The scale bytes that a word uses, by number of the block in the plane (R103): as one number, with unused bytes zero. The
first byte beyond the gang's region raises ADDR_RANGE, an unbound segment stalls. -/
def State.scaleBytes (s : State) (c : Client) (cfg : Word) (blocks : List Nat) : RangeRes ⊕ Nat :=
  let base := cfgSptr cfg * 16
  match blocks.find? fun b => base + b ≥ s.lsRegion c.gang * 65536 with
  | some b => .inl (.fault cADDR_RANGE (lsVa (base + b)) c.die)
  | none => blocks.foldl (fun acc b => match acc with
    | .inr n => match s.scratch c (lsVa (base + b)) with
      | .ok a => .inr (n + s.rd a 1 * 2 ^ (8 * b))
      | .fault e => .inl (.fault e (lsVa (base + b)) c.die)
      | .stall w => .inl (.stall w)
    | r => r) (.inr 0)

/-- The blocks of a tile's elements, in order and once each, for the elements that pass a test. -/
def Tile.blocks (t : Tile) (n : Nat) (p : Nat → Bool) : List Nat :=
  if !t.scaled then [] else
    ((List.range n).filter p).foldl (fun acc k =>
      let b := blockOf t.fmt k
      if acc.getLast? = some b then acc else acc ++ [b]) []

end Sys2Proof.Machine
end

