-- ==== Sys2Proof/Machine/Decay.lean ====
section
/-! DEFINITION. Decay-stamped words: the decay factor, the decayed read and the merge (R129 to R132), and the vector words
that use them (R462, R463). -/

namespace Sys2Proof.Machine

/-- `cc_i` for i = 1 to 44: log2 (1 + 2^-i), rounded to 44 fraction bits (R130). -/
def decayLogs : List Nat :=
  [10290769141693, 5663418938183, 2989352238971, 1538662575249, 780989607032, 393498728203,
   197511966174, 98948115835, 49522278277, 24773217745, 12389631471, 6195571754,
   3097974928, 1549034732, 774529184, 387267547, 193634512, 96817441,
   48408766, 24204395, 12102200, 6051101, 3025551, 1512775,
   756388, 378194, 189097, 94548, 47274, 23637,
   11819, 5909, 2955, 1477, 739, 369,
   185, 92, 46, 23, 12, 6,
   3, 1]

/-- The loop of `dk_factor` (R130): `g` with 44 fraction bits, P with 46. -/
def decayLoop (g p : Nat) (i : Nat) : List Nat → Nat
  | [] => p
  | c :: r => if c ≤ g then decayLoop (g - c) (p + p / 2 ^ i) (i + 1) r else decayLoop g p (i + 1) r

/-- `dk_factor` (R130): the class's DECAY value, and the step difference; exact. -/
def dkFactor (decay delta : Nat) : Val :=
  let e := delta * decay
  let whole : Nat := e / 2 ^ 42
  let frac : Nat := e % 2 ^ 42
  if frac = 0 then .dyadic false 1 (-(whole : Int))
  else .dyadic false (decayLoop ((2 ^ 42 - frac) * 4) (2 ^ 46) 1 decayLogs) (-47 - (whole : Int))

/-- What decayed reads depend on: the decay table and bits [23:0] of the step view (R127, R130). -/
structure DecayView where
  table : Tab (BitVec 48)
  view : Nat
  deriving DecidableEq, Repr

/-- Stamp and class of a DKW64 word (R107). -/
def dkStamp (w : Nat) : Nat := w / 2 ^ 32 % 2 ^ 24
def dkClass (w : Nat) : Nat := w / 2 ^ 56 % 256

/-- The step difference (R129). -/
def DecayView.delta (v : DecayView) (w : Nat) : Nat := (v.view + 2 ^ 24 - dkStamp w) % 2 ^ 24

/-- A stale stamp (R129). -/
def DecayView.stale (v : DecayView) (w : Nat) : Bool := v.delta w ≥ 2 ^ 23

/-- `dk_read` of a word whose stamp is not stale: FP32 bits (R131). -/
def DecayView.read (v : DecayView) (w : Nat) : Nat :=
  let x := w % 2 ^ 32
  let value := dec32 x
  let decay := (tabAt v.table 0 (dkClass w)).toNat
  if value.isNan then fFP32.nan
  else if value.isInf || value.isZero then x
  else if v.delta w * decay / 2 ^ 42 ≥ 160 then x / 2 ^ 31 * 2 ^ 31
  else (fFP32.rnd .rne false 0 (value.mul (dkFactor decay (v.delta w)))).bits

/-- A word stamped at the step view, of a class. -/
def DecayView.stamp (v : DecayView) (cls bits : Nat) : Nat := cls * 2 ^ 56 + v.view * 2 ^ 32 + bits % 2 ^ 32

/-- `dk_merge` of a word and FP32 bits already read (R132): the new word, and the record of the sum. -/
def DecayView.merge (v : DecayView) (ieee : Bool) (a b : Nat) : Rounded :=
  let r := fFP32.rnd .rne ieee 0 (Val.add false (dec32 (v.read a)) (dec32 b))
  { r with bits := v.stamp (dkClass a) r.bits }

/-- The decay view of a strand (R127). -/
def State.decayOf (s : State) (m : Strand) : DecayView :=
  ⟨((s.rank? m.rank).map (·.decay)).getD [], m.stepv.toNat % 2 ^ 24⟩

/-- The first enabled element with a stale stamp. -/
def staleAt (v : DecayView) (mask : BitVec 1024) (width n : Nat) (word : Nat → Nat) : Option Nat :=
  (List.range n).find? fun k => mask.getLsbD (laneOf width k) && v.stale (word k)

/-- VDKADD (R462). -/
def execVdkadd (d a b : Field) (s : State) : Host.Outcome State Fault Refusal :=
  onVec s fun u m => do
    let td ← m.vTile d [0xF]
    let ta ← m.vLike td a
    let tb ← m.vTile b [0x0, 0xF]
    if !tb.sameShape td then .error b
    let v := s.decayOf m
    let (ia, ib) := (s.image ta, s.image tb)
    let wa := fun k => elemBits ia 64 k
    let wb := fun k => elemBits ib (cfgWidth tb.fmt) k
    .ok (match staleAt v m.mask 64 td.count wa, (if tb.fmt = 0xF then staleAt v m.mask 64 td.count wb else none) with
      | some i, some j => s.raise u .x cSTALE_STAMP 0 (fprog 5 (min i j))
      | some i, none => s.raise u .x cSTALE_STAMP 0 (fprog 5 i)
      | none, some j => s.raise u .x cSTALE_STAMP 0 (fprog 5 j)
      | none, none =>
        (s.elems u m td .rne fun k _ =>
          ⟨v.merge m.ieee (wa k) (if tb.fmt = 0xF then v.read (wb k) else wb k), false⟩).done u .x)

/-- VDKAPP (R463). -/
def execVdkapp (d a : Field) (s : State) : Host.Outcome State Fault Refusal :=
  onVec s fun u m => do
    let td ← m.vTile d [0x0, 0xF]
    let ta ← m.vTile a [0xF]
    if !ta.sameShape td then .error a
    let v := s.decayOf m
    let ia := s.image ta
    let wa := fun k => elemBits ia 64 k
    .ok (match staleAt v m.mask (cfgWidth td.fmt) td.count wa with
      | some i => s.raise u .x cSTALE_STAMP 0 (fprog 5 i)
      | none =>
        (s.elems u m td .rne fun k _ =>
          .plain (if td.fmt = 0xF then v.stamp (dkClass (wa k)) (v.read (wa k)) else v.read (wa k))).done u .x)

end Sys2Proof.Machine
end

