-- ==== Sys2Proof/Machine/Life.lean ====
section
/-! DEFINITION. Sync-cell queues (R209), the counters of a nest, and the ends of strands, gangs and nests (R58 to R61). -/

namespace Sys2Proof.Machine

/-! ### Binding table (R88) -/

def bindV (b : Word) : Bool := bit b 0
def bindHeld (b : Word) : Bool := bit b 1
def bindShared (b : Word) : Bool := bit b 2
/-- The cell address that an entry names, bits [56:6]. -/
def bindCell (b : Word) : Word := b &&& 0x01FFFFFFFFFFFFC0

/-- Sets or clears HELD and SHARED in every valid entry that names the cell (R332, R411). -/
def Strand.markBind (m : Strand) (names : Word → Bool) (held shared : Bool) : Strand :=
  { m with bindB := m.bindB.map fun b =>
      if bindV b && names (bindCell b) then
        (b &&& ~~~(6 : Word)) ||| (if held then 2 else 0) ||| (if shared then 4 else 0)
      else b }

/-- The space and offset that an address of a strand names, with the job. -/
def State.spotOf (s : State) (m : Strand) (va : Word) : Option (Spot × BitVec 32) :=
  match s.rank? m.rank with
  | none => none
  | some r => match s.resolve { r.client m.rank with dmap := m.dmap } va with
    | (_, .ok p) => some (p, r.job)
    | _ => none

/-- Where the bytes of an offset lie, as the walk of its space gives it now, whatever die asks. -/
def State.spotPlace (s : State) (p : Spot) (job : BitVec 32) : Option Nat :=
  let d := (s.forwardOf p.die job p.key).getD p.die
  (s.walk d job p.key p.off).map fun l => (leafByte d l.leaf l.size p.off).2

/-- Where a request for an offset may find its bytes: as the walk of its space gives them now, or by a leaf that the TLB of the die which
serves it still holds (R176). -/
def State.spotPlaces (s : State) (p : Spot) (job : BitVec 32) : List Nat :=
  let d := (s.forwardOf p.die job p.key).getD p.die
  (s.spotPlace p job).toList ++
    (((s.die d).tlbHit job p.key p.off).map fun e => (leafByte d e.leaf e.size.toNat p.off).2).toList

/-- Where the bytes at an address of a strand lie. -/
def State.placeOf (s : State) (m : Strand) (va : Word) : Option Nat := (s.spotOf m va).bind fun x => s.spotPlace x.1 x.2

/-- Two addresses of a strand name one cell: they are equal in bits [56:6], or lead to the same bytes (R88, R332). -/
def State.sameCell (s : State) (m : Strand) (va cell : Word) : Bool :=
  bindCell va == bindCell cell || match s.placeOf m va, s.placeOf m cell with
    | some a, some b => a == b
    | _, _ => false

/-- The strand's request for a cell is granted: the entries that name the cell show the hold at once (R209, R332). -/
def State.granted (s : State) (m : Strand) (excl : Bool) : Strand :=
  match m.acq with
  | none => m
  | some (va, _) => { m.markBind (s.sameCell m va) true (!excl) with acq := some (va, some excl) }

/-! ### Cells -/

/-- The lock word at a cell (R208), as its exclusive bit and its shared count. -/
def State.cellWord (s : State) (addr : Nat) : Word := wd (s.rd addr 8)

def State.setCell (s : State) (addr : Nat) (v : Word) : State := s.wr addr 8 v.toNat

/-- The lock word changes for a strand that named its cell by an offset of a space: the page counts as written (R268). -/
def State.lockCell (s : State) (c : CellName) (addr : Nat) (v : Word) : State := (s.markDirty c.job c.key c.off).setCell addr v

/-- A lock word that is about to change for some of its holders or requests lies in a page that has to be swept (R135) or copied
(R273) first: the state in which the page has been asked for. -/
def State.cellWait (s : State) (d : DieKey) (addr : Nat) : Option State :=
  let v := s.die d
  (((v.holds.filter fun h => h.addr = addr).map (·.name)) ++ (tabAt v.cells [] addr).map (·.name)).findSome? fun c =>
    s.pageWait c.via c.job c.key c.off true

/-- Changes a strand that a package's warm save keeps (R291). -/
def State.updSaved (s : State) (uid : Nat) (f : Strand → Strand) : State :=
  { s with pkgs := s.pkgs.map fun e => (e.1, { e.2 with warm := e.2.warm.map fun w =>
      { w with strands := w.strands.map fun x => if x.1 = uid then (x.1, f x.2) else x } }) }

/-- Tells a strand that its request is granted: by a message from the serving die to the strand's die. A strand that is
switched out, or whose die is the serving die, learns at once, and so does one that a warm stop has saved (R209). -/
def State.tellGrant (s : State) (d : DieKey) (addr uid : Nat) (excl : Bool) : State :=
  match s.strand uid with
  | none => s.updSaved uid fun m => s.granted m excl
  | some m => match m.place with
    | none => s.setStrand uid (s.granted m excl)
    | some loc => s.send d (locDie loc) (addr % 2 ^ 40) (.cellGrant uid excl true)

/-- Adds the hold of a request. -/
def State.addHold (s : State) (d : DieKey) (addr : Nat) (r : CellReq) : State :=
  s.updDie d fun v => { v with holds := v.holds ++ [⟨addr, r.uid, r.excl, r.name⟩] }

/-- The bytes of a cell have come to somebody else (R17, R186): a request or a hold that the strand made there before changes them no
more (log 78). -/
def State.cellGone (s : State) (d : DieKey) (addr : Nat) (c : CellName) : Bool :=
  s.strayed c.via d c.job c.key c.off addr || s.lentAway c.job c.via addr

/-- Serves a cell's queue from its head (R209): one exclusive request when the word is zero, or every shared request up to
the first exclusive one while EXCL is 0. A request whose cell is gone leaves the queue. -/
def State.serveCell (s : State) (d : DieKey) (addr : Nat) : Nat → State
  | 0 => s
  | fuel + 1 =>
    match tabAt (s.die d).cells [] addr with
    | [] => s
    | r :: rest =>
      let next := fun (x : State) => x.updDie d fun v => { v with cells := tabSet v.cells [] addr rest }
      if s.cellGone d addr r.name then (next s).serveCell d addr fuel else
        let w := s.cellWord addr
        let ok := if r.excl then w == 0 else !bit w 63
        if !ok then s else
          let s1 := next (s.lockCell r.name addr (if r.excl then 0x8000000000000000 else w + 1))
          let s2 := (s1.addHold d addr r).tellGrant d addr r.uid r.excl
          if r.excl then s2 else s2.serveCell d addr fuel

/-- The whole queue of a cell is served. -/
def State.serveQueue (s : State) (d : DieKey) (addr : Nat) : State :=
  s.serveCell d addr ((tabAt (s.die d).cells [] addr).length + 1)

/-- A request joins the queue of its cell and the queue is served (R209). -/
def State.queueCell (s : State) (d : DieKey) (addr : Nat) (r : CellReq) : State :=
  (s.updDie d fun v => { v with cells := tabSet v.cells [] addr (tabAt v.cells [] addr ++ [r]) }).serveQueue d addr

/-- The hold of a strand on a cell. -/
def State.holdOf (s : State) (d : DieKey) (addr uid : Nat) : Option CellHold :=
  (s.die d).holds.find? fun h => h.addr = addr && h.uid = uid

/-- REL at the serving die (R209): the strand's hold ends and the queue is served. A cell that the strand does not hold
is left as it is, and so are the bytes of a cell that is gone. -/
def State.releaseCell (s : State) (d : DieKey) (addr uid : Nat) : State :=
  match s.holdOf d addr uid with
  | none => s
  | some h =>
    let w := s.cellWord addr
    let s1 := if s.cellGone d addr h.name then s else s.lockCell h.name addr (if h.excl then w &&& 0x7FFFFFFFFFFFFFFF else w - 1)
    (s1.updDie d fun v => { v with holds := v.holds.erase h }).serveQueue d addr

/-- The cells of a rank's private space are translated at its new home (R164, R209). -/
def State.renameCells (s : State) (job : BitVec 32) (key : Nat) (d0 d1 : DieKey) : State :=
  let new := fun (c : CellName) => if c.via = d0 && c.job = job && c.key = key then { c with via := d1 } else c
  { s with dies := s.dies.map fun e => (e.1, { e.2 with
      cells := e.2.cells.map fun c => (c.1, c.2.map fun r => { r with name := new r.name })
      holds := e.2.holds.map fun h => { h with name := new h.name } }) }

/-- The requests and holds of a job's cells in a moved page go with it, in order (R209); those in frames that the page's die has lent
away from the job at the die that translates stay (R17, R186, log 105). -/
def State.moveCells (s : State) (job : BitVec 32) (via dOld : DieKey) (old : Nat) (dNew : DieKey) (new bytes : Nat) : State :=
  let v := s.die dOld
  let goes := fun (a : Nat) (c : CellName) => old ≤ a && a < old + bytes && c.job = job && !s.lentAway job via a
  let cs := v.cells.filterMap fun e => match e.2.filter fun r => goes e.1 r.name with
    | [] => none
    | l => some (e.1, l)
  let hs := v.holds.filter fun h => goes h.addr h.name
  let s1 := s.setDie dOld { v with
    cells := v.cells.filterMap fun e => match e.2.filter fun r => !goes e.1 r.name with
      | [] => none
      | l => some (e.1, l)
    holds := v.holds.filter fun h => !goes h.addr h.name }
  s1.updDie dNew fun n => { n with
    cells := cs.foldl (fun t e => tabPut t (e.1 - old + new) (tabAt t [] (e.1 - old + new) ++ e.2)) n.cells
    holds := n.holds ++ hs.map fun h => { h with addr := h.addr - old + new } }

/-! ### Counters of a nest -/

/-- Increments a counter of a rank; counter 0 is never incremented, and a counter stops at its top (R218). -/
def State.bump (s : State) (r idx : Nat) : State :=
  if idx = 0 then s else s.updRank r fun v =>
    let c := tabAt v.counters 0 idx
    { v with counters := tabSet v.counters 0 idx (if c = 0xFFFFFFFF then c else c + 1) }

/-- CIDX and TIDX of a record (R221). -/
def Nest.cidx (n : Nest) : Nat := fld (vget n.words 0 5) 9 0
def Nest.tidx (n : Nest) : Nat := fld (vget n.words 0 5) 25 16

/-- Bound of loop dimension `d`, and the count of iterations (R221). -/
def recBound (w0 : Word) (d : Nat) : Nat := fld w0 (16 * d + 15) (16 * d)
def recCount (w0 : Word) : Nat :=
  (List.range 4).foldl (fun acc d => if recBound w0 d = 0 then acc else acc * recBound w0 d) 1
def Nest.count (n : Nest) : Nat := recCount (vget n.words 0 0)

/-- Early trigger and completion of a nest fall due, the early trigger first (R61, R234). The event is NEST_DONE; that no event is
posted for a rank's or a job's completion is the model's choice (R43, log 87). -/
def State.nestCheck (s : State) (nid : Nat) : State :=
  match s.nest? nid with
  | none => s
  | some n =>
    let s1 := if !n.trigDone && n.triggered = n.count then
        (s.updNest nid fun v => { v with trigDone := true }).bump n.rank n.tidx
      else s
    if n.retired = n.count then
      let s2 := s1.bump n.rank n.cidx
      let s3 := if n.launched then s2.event n.rank (evPayload 0x10 (n.cidx * 256) n.addr.toNat) else s2
      { s3 with nests := tabDel s3.nests nid }
    else s1

/-- A gang triggers when each of its strands has retired TRIG or ended (R60). -/
def State.gangTrigger (s : State) (gid : Nat) : State :=
  match s.gang? gid with
  | none => s
  | some g =>
    if !g.triggered && g.live.all (fun u => g.trigs.contains u) then
      ((s.updGang gid fun v => { v with triggered := true }).updNest g.nest fun n =>
        { n with triggered := n.triggered + 1 }).nestCheck g.nest
    else s

/-- What is left of a table of segments when the claims of a holder that is gone are given up (log 84): a segment that it has claimed is IDLE again, and
one that was to be restored for it is FREE. -/
def dropClaims (rank holder : Nat) (t : Tab SegRec) : Tab SegRec :=
  t.filterMap fun x => match x.2.state with
    | .saving r h _ _ => some (if r = rank && h = holder then (x.1, { x.2 with state := .idle }) else x)
    | .restoring => if x.2.rank = rank && x.2.holder = holder then none else some x
    | _ => some x

/-- A gang retires when every strand has ended (R60): its LS segments become FREE (R158), its context image is freed
(R231), its shadow-store slots are dropped. -/
def State.gangRetire (s : State) (gid : Nat) : State :=
  match s.gang? gid with
  | none => s
  | some g =>
    if !g.live.isEmpty then s else
      let s1 := s.gangTrigger gid
      let s2 := { s1 with
        gangs := tabDel s1.gangs gid
        lsSeg := (dropClaims g.rank gid s1.lsSeg).filter fun e => !(e.2.rank = g.rank && e.2.holder = gid)
        shadowTile := s1.shadowTile.filter fun e => e.2.gang ≠ gid
        shadowAcc := s1.shadowAcc.filter fun e => e.2.gang ≠ gid }
      (s2.updNest g.nest fun n => { n with retired := n.retired + 1 }).nestCheck g.nest

/-- The holds of a strand are released, as by REL: those that its entries show, in entry order, and then the others in
ascending cell address (R209, R332), by which the model takes the address of the bytes at the serving die (log 99). -/
def State.releaseAll (s : State) (u : Nat) (m : Strand) : State :=
  let shown := m.bindB.toList.filterMap fun b => if bindV b && bindHeld b then some (bindCell b) else none
  let mine : List (DieKey × CellHold) := s.dies.flatMap fun e =>
    (e.2.holds.filter fun h => h.uid = u).map fun h => (BitVec.ofNat 12 e.1, h)
  let s1 := shown.foldl (fun acc cell =>
    match acc.clientOf m with
    | none => acc
    | some c => match acc.access c cell 8 false with
      | (acc1, .ok t) => acc1.releaseCell t.die t.addr u
      | (acc1, _) => acc1) s
  (sortBy (fun h => h.2.addr) mine).foldl (fun acc h => acc.releaseCell h.1 h.2.addr u) s1

/-- A strand that ends leaves the queues of cells it still waits for, which R209 does not say (log 108), and each of these queues is
served: a shared request that stood behind it may be granted now. -/
def State.leaveQueues (s : State) (u : Nat) : State :=
  let left := s.dies.flatMap fun e =>
    (e.2.cells.filter fun c => c.2.any fun r => r.uid = u).map fun c => ((BitVec.ofNat 12 e.1 : DieKey), c.1)
  left.foldl (fun acc (e : DieKey × Nat) =>
    (acc.updDie e.1 fun v => { v with cells := tabSet v.cells [] e.2 ((tabAt v.cells [] e.2).filter fun r => r.uid ≠ u) }).serveQueue
      e.1 e.2) s

/-- A strand can end only once no lock word that its end changes lies in a page that has to be swept (R135) or copied (R273) first: the
state in which the page has been asked for. -/
def State.endWait (s : State) (u : Nat) : Option State :=
  s.dies.findSome? fun e =>
    ((e.2.holds.filter fun h => h.uid = u).map (·.addr) ++ (e.2.cells.filter fun c => c.2.any fun r => r.uid = u).map (·.1)).findSome?
      (s.cellWait (BitVec.ofNat 12 e.1))

/-- The payload of ERRQ_LOST (R252). -/
def errqLost (m : Strand) (loc : Nat) : BitVec 128 :=
  evPayload 0x03 (m.errq.length * 256 + b2n m.errOvf * 32768 + loc * 65536)
    ((m.errq.head?.map fun e => e.addr.toNat).getD 0)

/-- The errors that a strand leaves unread are reported (R243). -/
def State.reportErrors (s : State) (u : Nat) : State :=
  match s.strand u with
  | none => s
  | some m => if m.errq.isEmpty && !m.errOvf then s else s.event m.rank (errqLost m (m.place.getD 0))

/-- A strand ends (R58, R250): its holds are released, its lease and its accumulator banks are freed, and it leaves its gang
and the gang's barrier. -/
def State.leaveGang (s : State) (u : Nat) : State :=
  match s.strand u with
  | none => s
  | some m =>
    let s1 := ((s.releaseAll u m).leaveQueues u).dropArray u
    let s2 := { s1 with accOwner := s1.accOwner.filter fun e => e.2.uid ≠ u }
    let s3 := s2.updGang m.gang fun g => { g with live := g.live.filter (· ≠ u) }
    (s3.gangTrigger m.gang).gangRetire m.gang

/-- The context bank and the tile window of an ended strand are free. -/
def State.freeBank (s : State) (u : Nat) : State :=
  { s with
    strands := tabDel s.strands u
    cur := match s.cur with
      | some (v, t) => if v = u then none else some (v, t)
      | none => none }

/-- A strand ends and its bank is free at once (R58). -/
def State.endStrand (s : State) (u : Nat) : State := ((s.reportErrors u).leaveGang u).freeBank u

end Sys2Proof.Machine
end

