-- ==== Sys2Proof/Machine/Port.lean ====
section
/-! DEFINITION. The host port's rings (R280 to R282): acceptance of a command, its completion in acceptance order, and the
notifications of R289. -/

namespace Sys2Proof.Machine

/-- An index of a ring after the next entry. -/
def ringNext (size i : Word) : Word := if size = 0 then 0 else wd ((i.toNat + 1) % size.toNat)

/-- The completion ring is set. -/
def Package.cqReady (k : Package) : Bool := k.cqset && k.cqsize ≠ 0

/-- The notification ring is set. -/
def Package.nqReady (k : Package) : Bool := k.nqset && k.nqsize ≠ 0

/-- The completion ring is full (R281). -/
def Package.cqFull (k : Package) : Bool := k.cqReady && ringNext k.cqsize k.cqtail = k.cqhead

/-- A completion as it is written (R283). -/
def Completion.toNat (c : Completion) : Nat := c.tag.toNat + c.status.toNat * 2 ^ 16 + c.value.toNat * 2 ^ 64

/-- Writes the completions that are known, in acceptance order, while the ring has room (R282, R288). -/
def State.flush (s : State) (p : Pkg) : Nat → State
  | 0 => s
  | fuel + 1 =>
    let k := s.pkg p
    match k.pending with
    | ⟨_, some c, _⟩ :: rest =>
      if !k.cqReady || k.cqFull then s
      else
        let s1 := s.wr (hostAddr p.toNat (k.cqbase.toNat + 16 * k.cqtail.toNat)) 16 c.toNat
        (s1.setPkg p { k with pending := rest, cqtail := ringNext k.cqsize k.cqtail }).flush p fuel
    | _ => s

/-- A command's outcome becomes known; its completion is written when those accepted before it are (R288). -/
def State.finish (s : State) (p : Pkg) (ticket : Nat) (status : BitVec 8) (value : Word) : State :=
  (s.updPkg p fun k => { k with pending := k.pending.map fun e =>
    if e.ticket = ticket then { e with done := some ⟨e.tag, status, value⟩ } else e }).flush p ((s.pkg p).pending.length)

/-- The host port is trained (R281). -/
def Package.portUp (k : Package) : Bool := k.state ≠ .off && k.log.any fun e => fld e 3 0 = 1 && fld e 15 8 = 0

/-- READY of SQSTAT: both rings are set, and the Sluice accepts commands, for the port is trained and the completion ring has room
(R281, R282). -/
def Package.ready (k : Package) : Bool := k.portUp && k.cqReady && k.nqReady && !k.cqFull

/-- The Sluice accepts a command now: it is ready, and every command accepted before has taken effect (R34, R288). -/
def Package.accepts (k : Package) : Bool := k.ready && k.pending.all fun e => e.done.isSome

/-- The start has reached step 7, from which the Sluice carries out every command (R290). -/
def Package.loaded (k : Package) : Bool := k.state = .started || 7 ≤ k.step

/-- A command is accepted (R280, R288): SQHEAD advances, and the command takes its place among the completions to come,
under a ticket of its own. -/
def State.accept (s : State) (p : Pkg) (c : Command) : Nat × State :=
  (s.ids, { s.updPkg p fun k => { k with
      sqhead := k.sqhead + 1
      pending := k.pending ++ [⟨s.ids, none, c.w0.extractLsb' 16 16⟩] } with
    ids := s.ids + 1 })

/-- A notification (R289): TYPE, and the fields above it at their places. -/
def notePayload (type fields : Nat) : BitVec 128 := BitVec.ofNat 128 (type + fields)

/-- The die of a package from which the Sluice's commands leave: die 0. The hub die, on which the Sluice stands, has no number
among the fabric's dies, and R22 and R256 do not say with which source a command for another package is routed (log 95). -/
def sluiceDie (p : Pkg) : DieKey := BitVec.setWidth 12 p

end Sys2Proof.Machine
end

