-- ==== Sys2Proof/Machine/Scalar.lean ====
section
/-! DEFINITION. The scalar memory words of the C stream (R387 to R390, R428 to R430), the atomics (R339, R360), and the
requests and responses that carry them to other dies (R163, R242, R257). -/

namespace Sys2Proof.Machine

/-! ### What an access does at memory -/

/-- The new value of an AMO on `8n` bits (R339); FADD overflows by R114 under RMODE.IEEE. -/
def amoNew (op : BitVec 4) (n : Nat) (ieee : Bool) (m x : Nat) : Nat :=
  let w := 8 * n
  let sgn := fun v => (BitVec.ofNat w v).toInt
  match op.toNat with
  | 0 => (m + x) % 2 ^ w
  | 1 => (fFP32.rnd .rne ieee 0 (Val.add false (dec32 m) (dec32 x))).bits
  | 2 => if sgn x < sgn m then x else m
  | 3 => if sgn m < sgn x then x else m
  | 4 => m &&& x
  | 5 => m ||| x
  | 6 => m ^^^ x
  | 7 => x
  | 10 => min m x
  | _ => max m x

/-- The operation code of an AMO: the field, with 8 added for `.U` (R338). -/
def amoCode (o : BitVec 3) (u : Bool) : BitVec 4 := BitVec.ofNat 4 (o.toNat + if u then 8 else 0)

/-- Whether an access is checked as a write (R174, R339, R360). -/
def AccessOp.writes : AccessOp → Bool
  | .load _ => false
  | .acquireLoad => false
  | .store => true
  | .releaseStore => true
  | .amo _ _ => true
  | .cas => true

/-- Performs an access at its bytes: the value it returns, and memory afterwards. -/
def State.performAt (s : State) (a : Access) (addr : Nat) : Word × State :=
  let m := s.rd addr a.bytes
  let x := a.data.toNat % 2 ^ (8 * a.bytes)
  match a.op with
  | .load signed => (if signed then sextNat (8 * a.bytes) m else wd m, s)
  | .acquireLoad => (wd m, s)
  | .store => (0, s.wr addr a.bytes x)
  | .releaseStore => (0, s.wr addr a.bytes x)
  | .amo op _ => (sextNat (8 * a.bytes) m, s.wr addr a.bytes (amoNew op a.bytes (bit a.other 0) m x))
  | .cas =>
    (sextNat (8 * a.bytes) m,
      if m = a.other.toNat % 2 ^ (8 * a.bytes) then s.wr addr a.bytes x else s)

/-- Performs an access to device memory that a die has translated: a write stays within what its job may write (R17). -/
def State.perform (s : State) (a : Access) (addr : Nat) : Word × State :=
  s.performAt a (if a.op.writes then s.confine a.job a.via addr else addr)

/-- Whether a failure at another die posts to the error queue (R242). -/
def AccessOp.posts : AccessOp → Bool
  | .store => true
  | .amo _ ret => !ret
  | _ => false

/-- The access returns its value and its word retires. -/
def Strand.complete (m : Strand) (a : Access) (v : Word) : Strand :=
  (match a.op with
  | .store => m
  | .releaseStore => m
  | _ => m.setReg a.dst v).retire a.stream

/-- The address of the 8-byte word that holds a byte (R242). -/
def wordOf (va : Word) : Word := va &&& ~~~(7 : Word)

/-- A failure of a write is posted: the entry reaches the strand's error queue by a step of its own (R242). -/
def State.postError (s : State) (src dst : DieKey) (uid : Nat) (va : Word) (die : DieKey) (cause : BitVec 8) : State :=
  s.send src dst va.toNat (.post uid ⟨wordOf va, peerOf die, cause⟩)

/-- An access leaves for another die: a word that needs no answer retires at once, any other waits for its answer. -/
def State.depart (s : State) (u : Nat) (own dst : DieKey) (a : Access) (route : Nat) (fwd : Bool) (body : Body) : State :=
  let s1 := s.sendOn own dst route fwd body
  if a.waits then s1.waitFor u a.stream (.reply s.ids) else s1.done u a.stream

/-- A posted write of the strand's stream to the 64-byte block of an address, whatever address it was given by, is still on its
way. A later access of the stream to the block waits for it (R201): the two may go different ways, and either may be translated by a
leaf that is no longer the walk's (R176). A write that no die has translated yet goes to the bytes of its own space and offset,
whatever the die map is by now. -/
def State.writeAhead (s : State) (u : Nat) (m : Strand) (t : Stream) (va : Word) : Bool :=
  let goes := fun (q : Msg) (a : Access) =>
    if a.uid = u && a.stream = t && a.op.posts then
      match a.phys with
      | some (addr, _) => [addr]
      | none => s.spotPlaces ⟨q.dst, a.key, a.off⟩ a.job
    else []
  let l := s.msgs.flatMap fun q => match q.body with
    | .access a => goes q a
    | .polder a _ => goes q a
    | _ => []
  !l.isEmpty && match s.spotOf m va with
    | none => false
    | some x => (s.spotPlaces x.1 x.2).any fun z => l.any fun y => y / 64 = z / 64

/-- An access to device memory by a word of the strand (R174): made at once where the strand's own die holds the bytes,
and sent to the die that holds them or translates them otherwise. A word that returns no value goes on once its request has been
translated and its target die is known to be another one, for its faults are precise if that is the own die (log 96). -/
def State.deviceAccess (s : State) (u : Nat) (c : Client) (a : Access) : State :=
  match s.resolve c a.va with
  | (s1, .fault e) => s1.raise u a.stream e a.va 0
  | (s1, .stall _) => s1
  | (s1, .ok p) =>
    let a1 : Access := { a with key := p.key, off := p.off, job := c.job, home := c.home }
    if !s1.reach c.die p.die p.off then
      if a.op.posts then (s1.postError c.die c.die u a.va p.die cPEER_UNREACHABLE).done u a.stream
      else s1.raise u a.stream cPEER_UNREACHABLE a.va 0
    else if p.die ≠ c.die then s1.depart u c.die p.die a1 p.off false (.access a1)
    else match s1.servedAt c.die p.die c.job p.key p.off with
      | none => s1.raise u a.stream cPEER_UNREACHABLE a.va 0
      | some d =>
        if d ≠ c.die then s1.depart u c.die d a1 p.off true (.access a1)
        else match s1.locateLeaf p c.job c.home c.die a.op.writes with
          | (s2, .stall _, _) => s2
          | (s2, .fault e, far) =>
            if a.op.posts && far then (s2.postError c.die c.die u a.va c.die e).done u a.stream
            else s2.raise u a.stream e a.va 0
          | (s2, .ok t, _) =>
            if t.local_ || (t.die = c.die && !t.polder) then
              let (v, s3) := s2.perform { a1 with via := c.die } t.addr
              s3.upd u fun m => m.complete a1 v
            else
              let a2 : Access := { a1 with phys := some (t.addr, t.polder), via := c.die, waits := !a.op.posts }
              s2.depart u c.die t.die a2 (t.addr % 2 ^ 40) true (if t.polder then .polder a2 t.addr else .access a2)

/-- The parts of an access that its word gives. -/
def mkAccess (u : Nat) (m : Strand) (t : Stream) (op : AccessOp) (va : Word) (n : Nat) (data other : Word) (d : Field) :
    Access :=
  { uid := u, stream := t, pos := (m.stream t).pos, op := op, job := 0, key := 0, off := 0, va := va, bytes := n
    data := data, other := other, dst := d, home := 0, phys := none, via := 0, waits := true }

/-- Effective address of a scalar access (R387): the offset counts units of the width. -/
def scalarEa (m : Strand) (a : Field) (sz : BitVec 2) (o : BitVec 10) : Word :=
  m.reg a + (o.signExtend 64 <<< sz.toNat)

/-- A device-memory word after orders 1 to 3 of R174: domain 31 raises ADDR_RANGE (R389, R429). -/
def onDevice (s : State) (u : Nat) (m : Strand) (a : Access) (align : Nat) : State :=
  if fld a.va 63 57 ≠ 0 then s.raise u a.stream cADDR_RANGE a.va 0
  else if a.va.toNat % align ≠ 0 then s.raise u a.stream cALIGN a.va 0
  else if fld a.va 56 52 = 31 then s.raise u a.stream cADDR_RANGE a.va 0
  else match s.clientOf m with
    | none => s
    | some c => if s.writeAhead u m a.stream a.va then s else s.deviceAccess u c a

/-- A scratchpad access of a scalar word (R138, R139, R390, R430). -/
def onScratch (s : State) (u : Nat) (m : Strand) (a : Access) : State :=
  if fld a.va 63 57 ≠ 0 then s.raise u a.stream cADDR_RANGE a.va 0
  else if a.va.toNat % a.bytes ≠ 0 then s.raise u a.stream cALIGN a.va 0
  else if fld a.va 56 52 ≠ 31 then s.raise u a.stream cADDR_RANGE a.va 0
  else match s.clientOf m with
    | none => s
    | some c => match s.scratch c a.va with
      | .fault e => s.raise u a.stream e a.va 0
      | .stall w => s.waitFor u a.stream w
      | .ok addr =>
        let (v, s1) := s.performAt a addr
        s1.upd u fun m => m.complete a v

/-- LDS (R390). -/
def execLds (d a : Field) (sz : BitVec 2) (o : BitVec 10) (s : State) : Host.Outcome State Fault Refusal :=
  onWord s .c false false fun u m =>
    onScratch s u m (mkAccess u m .c (.load false) (scalarEa m a sz o) (2 ^ sz.toNat) 0 0 d)

/-- STS (R430): full-empty bits keep their state. -/
def execSts (d a : Field) (sz : BitVec 2) (o : BitVec 10) (s : State) : Host.Outcome State Fault Refusal :=
  onWord s .c false false fun u m =>
    onScratch s u m (mkAccess u m .c .store (scalarEa m a sz o) (2 ^ sz.toNat) (m.reg d) 0 0)

/-- LDG (R389). -/
def execLdg (d a : Field) (sz : BitVec 2) (o : BitVec 10) (s : State) : Host.Outcome State Fault Refusal :=
  onWord s .c false false fun u m =>
    let n := 2 ^ sz.toNat
    onDevice s u m (mkAccess u m .c (.load false) (scalarEa m a sz o) n 0 0 d) n

/-- STG (R429). -/
def execStg (d a : Field) (sz : BitVec 2) (o : BitVec 10) (s : State) : Host.Outcome State Fault Refusal :=
  onWord s .c false false fun u m =>
    let n := 2 ^ sz.toNat
    onDevice s u m (mkAccess u m .c .store (scalarEa m a sz o) n (m.reg d) 0 0) n

/-- LDG.ACQ (R389, R207, R211). -/
def execLdgAcq (d a : Field) (o : BitVec 10) (s : State) : Host.Outcome State Fault Refusal :=
  onWord s .c false false fun u m =>
    onDevice s u m (mkAccess u m .c .acquireLoad (scalarEa m a 3 o) 8 0 0 d) 64

/-- STG.REL (R429, R206, R207): waits until every earlier word has performed its effects. -/
def execStgRel (d a : Field) (o : BitVec 10) (s : State) : Host.Outcome State Fault Refusal :=
  onWord s .c false false fun u m =>
    if !s.quiet u m .c then s else
      onDevice s u m (mkAccess u m .c .releaseStore (scalarEa m a 3 o) 8 (m.reg d) 0 0) 64

/-- An atomic word: scratchpads and device memory alike (R339, R360, R143). -/
def onAtomic (s : State) (u : Nat) (m : Strand) (a : Access) : State :=
  if fld a.va 63 57 = 0 && a.va.toNat % a.bytes = 0 && fld a.va 56 52 = 31 then onScratch s u m a
  else onDevice s u m a a.bytes

/-- AMO (R339): without result when `d` is `g0`. -/
def execAmo (d a b : Field) (u_ w : Bool) (o : BitVec 3) (s : State) : Host.Outcome State Fault Refusal :=
  onWord s .c false false fun u m =>
    onAtomic s u m (mkAccess u m .c (.amo (amoCode o u_) (d ≠ 0)) (m.reg a) (if w then 8 else 4) (m.reg b)
      (if m.ieee then 1 else 0) d)

/-- CAS (R360): `g(d)` holds the expected value and receives the old one. -/
def execCas (d a b : Field) (w : Bool) (s : State) : Host.Outcome State Fault Refusal :=
  onWord s .c false false fun u m =>
    onAtomic s u m (mkAccess u m .c .cas (m.reg a) (if w then 8 else 4) (m.reg b) (m.reg d) d)

/-! ### Requests and responses -/

/-- Answers a request: its value, or the acknowledgement of a write whose word has retired. -/
def State.answer (s : State) (q : Msg) (a : Access) (v : Word) : State :=
  s.reply q (if a.waits then .reply a.uid a.stream a.dst v a.va q.id else .ack a.uid a.va)

/-- The word of a write of R242 that has waited goes on, whatever becomes of the write (R174). -/
def State.letGo (s : State) (q : Msg) (a : Access) : State :=
  if a.waits then s.send q.dst q.src q.route (.goOn a.uid a.stream a.va q.id) else s

/-- Refuses a request with a cause of R174: a write of R242 whose target die is not its strand's becomes an entry of the error queue, and
its word goes on. -/
def State.refuse (s : State) (q : Msg) (a : Access) (e : BitVec 8) (far : Bool) : State :=
  if a.op.posts && (far || !a.waits) then (s.reply q (.post a.uid ⟨wordOf a.va, peerOf q.dst, e⟩)).letGo q a
  else s.reply q (.refuse a.uid a.stream e a.va q.id)

/-- A request goes back to the die that translated it, to be translated anew. -/
def Msg.retranslate (q : Msg) (a : Access) : Msg :=
  q.onward a.via a.off (.access { a with phys := none })

/-- A request that a die has translated reaches the die that holds its bytes (R170, R191): it waits for a page that is to be swept or
copied first (R135, R273), goes back if its bytes have come to somebody else, is refused by a lender, or is performed. -/
def State.serveThere (s : State) (q : Msg) (a : Access) (addr : Nat) (polder : Bool) : State :=
  if s.strayed a.via q.dst a.job a.key a.off addr then s.setMsg (q.retranslate a)
  else if polder && !(s.die q.dst).lends (peerOf a.via) (addr % 2 ^ 40 / 65536) then s.refuse q a cPOLDER_LOST true
  else match s.pageWait a.via a.job a.key a.off a.op.writes with
    | some x => x
    | none =>
      let (v, s1) := s.perform a addr
      s1.answer q a v

/-- A request that its die has translated: one for another die goes on there (R170), and one that needs no answer stays where it is, to be
performed, while its word goes on. -/
def State.carryOn (s : State) (q : Msg) (a : Access) (t : Target) : State :=
  let body := fun (x : Access) => if t.polder then Body.polder x t.addr else .access x
  let posted := a.op.posts && (t.polder || t.die ≠ q.src)
  let a1 : Access := { a with phys := some (t.addr, t.polder), via := t.via, waits := a.waits && !posted }
  if t.local_ then
    if posted then (s.setMsg { q with body := .access a1 }).letGo q a
    else
      let (v, s1) := s.perform { a with via := t.via } t.addr
      s1.answer q a v
  else
    let s1 := s.setMsg (q.onward t.die (t.addr % 2 ^ 40) (body a1))
    if posted then s1.letGo q a else s1

/-- A request arrives at its target die and is translated and served, refused, or forwarded once (R163, R164, R170). -/
def State.serve (s : State) (q : Msg) (a : Access) : State :=
  match a.phys with
  | some (addr, polder) => s.serveThere q a addr polder
  | none =>
    match s.forwardOf q.dst a.job a.key with
    | none => s.refuse q a cPEER_UNREACHABLE true
    | some d =>
      if d ≠ q.dst then
        if q.forwarded || !s.reachFrom q.dst q.src d q.route then s.refuse q a cPEER_UNREACHABLE true
        else s.setMsg (q.onward d q.route q.body)
      else match s.locateLeaf ⟨d, a.key, a.off⟩ a.job a.home q.src a.op.writes with
        | (s1, .stall _, _) => s1
        | (s1, .fault e, far) => s1.refuse q a e far
        | (s1, .ok t, _) => s1.carryOn q a t

/-- PEER_REQUEST (R163): the row acts on a request that has reached its die. -/
def execPeerRequest (s : State) : Host.Outcome State Fault Refusal :=
  .next (match s.subjectMsg with
    | some q => match q.body with
      | .access a => s.serve q a
      | _ => s
    | none => s)

/-- POLDER_REQUEST (R191): a polder access reaches the lender, which serves it from a live lease or refuses it. -/
def execPolderRequest (s : State) : Host.Outcome State Fault Refusal :=
  .next (match s.subjectMsg with
    | some q => match q.body with
      | .polder a _ => s.serve q a
      | _ => s
    | none => s)

/-- A response reaches its strand: the value is written and the word retires, or the fault is raised; an answer that the
stream no longer waits for is discarded (R257). -/
def State.respond (s : State) (q : Msg) : State :=
  let s1 := s.dropMsg q.id
  match q.body with
  | .reply u t d v _ req => match s1.strand u with
    | none => s1
    | some m => if (m.stream t).wait = .reply req then (s1.setStrand u ((m.setReg d v).retire t)).takeFault u else s1
  | .refuse u t e va req => match s1.strand u with
    | none => s1
    | some m =>
      if (m.stream t).wait = .reply req then (s1.setStrand u (m.setWait t .none)).raise u t e va 0
      else if m.acq = some (va, none) then
        let s2 := s1.setStrand u { m with acq := none }
        if m.c.wait = .cell then (s2.upd u fun k => k.setWait .c .none).raise u .c e va 0 else s2
      else s1
  | .goOn u t _ req => match s1.strand u with
    | none => s1
    | some m => if (m.stream t).wait = .reply req then (s1.setStrand u (m.retire t)).takeFault u else s1
  | .ack _ _ => s1
  | .lendDone status le be who =>
    let v := wd (status.toNat + le * 2 ^ 8 + be * 2 ^ 12)
    match who with
    | .sluice p ticket => s1.finish p ticket status v
    | .strand u d => match s1.strand u with
      | none => s1
      | some m => if m.c.wait = .lease then (s1.setStrand u ((m.setReg d v).retire .c)).takeFault u else s1
  | _ => s

/-- PEER_RESPONSE (R174, R187, R257). -/
def execPeerResponse (s : State) : Host.Outcome State Fault Refusal :=
  .next (match s.subjectMsg with
    | some q => s.respond q
    | none => s)

/-- An error arrives at a strand's queue (R90, R243): dropped with OVF at a full queue, and the first entry is reported, with LOC 0
for a strand that is switched out and has no place (log 98). -/
def State.enqueueError (s : State) (u : Nat) (e : ErrEntry) : State :=
  match s.strand u with
  | none => s
  | some m =>
    if m.errq.length ≥ 64 then s.setStrand u { m with errOvf := true }
    else
      let s1 := s.setStrand u { m with errq := m.errq ++ [e] }
      if m.errq.isEmpty then s1.event m.rank (evPayload 0x02 (m.place.getD 0 * 65536) e.addr.toNat) else s1

/-- ERROR_QUEUE_POST (R90, R242). -/
def execErrorQueuePost (s : State) : Host.Outcome State Fault Refusal :=
  .next (match s.subjectMsg with
    | some q => match q.body with
      | .post u e => (s.dropMsg q.id).enqueueError u e
      | _ => s
    | none => s)

end Sys2Proof.Machine
end

