-- ==== Sys2Proof/Machine/Common.lean ====
section
/-! DEFINITION. The words of the common block (R307): NOP, FENCE, token counters, arrival counters, full-empty bits; and
the C stream's waits on full-empty bits (R142 to R151, R212, R388, R403, R423, R475, R476). -/

namespace Sys2Proof.Machine

/-- NOP (R403). -/
def execNop (t : Stream) (s : State) : Host.Outcome State Fault Refusal := onReg s t fun m => m

/-- FENCE (R212, R243, R379): every stream waits at the word, and it completes once every earlier word of every stream has
performed its effects and every earlier remote write is made or posted. Memory has one copy of every byte (R203), so the
scopes differ in nothing else that one step can show. -/
def execFence (t : Stream) (_f : Field) (s : State) : Host.Outcome State Fault Refusal :=
  onWord s t false false fun u m => if s.quiet u m t then s.done u t else s

/-! ### Token counters -/

/-- SIGK adds once there is room, else waits for it (R423). -/
def Strand.signal (m : Strand) (t : Stream) (k : BitVec 4) (n : BitVec 16) : Strand :=
  if (m.token k).toNat + n.toNat ≤ 0xFFFF then (m.setToken k (m.token k + n)).retire t else m.setWait t .room

/-- WAITK subtracts once the counter holds enough, else waits (R476). -/
def Strand.take (m : Strand) (t : Stream) (k : BitVec 4) (n : BitVec 16) : Strand :=
  if n ≤ m.token k then (m.setToken k (m.token k - n)).retire t else m.setWait t .token

/-- SIGK (R55, R423). -/
def execSigk (t : Stream) (k : BitVec 4) (n : BitVec 16) (s : State) : Host.Outcome State Fault Refusal :=
  onWord s t false false fun u m => if m.streamQuiet t then s.setStrand u (m.signal t k n) else s

/-- WAITK (R476), barred from delay slots. -/
def execWaitk (t : Stream) (k : BitVec 4) (n : BitVec 16) (s : State) : Host.Outcome State Fault Refusal :=
  onWord s t true false fun u m => s.setStrand u (m.take t k n)

/-- The word that a stream of a resident strand waits at, for the step that ends its wait; a stream that would pass the slip bound
goes on waiting (R48). -/
def State.waiting (s : State) (loc : Loc) (t : Stream) (w : Wait) : Option (Nat × Strand × Instr) :=
  match s.onBank loc.toNat with
  | none => none
  | some (u, m) =>
    if (m.stream t).wait ≠ w || !m.canIssue || !m.slipOk t then none else
      match m.wordAt (m.stream t).pos with
      | none => none
      | some k => match decode k.bits with
        | none => none
        | some i => some (u, m, i)

/-- WAITK_SATISFIED (R476): a waiting WAITK finds its counter high enough and subtracts. -/
def execWaitkSatisfied (loc : Loc) (st : Stream) (s : State) : Host.Outcome State Fault Refusal :=
  .next (match s.waiting loc st .token with
    | some (u, m, .waitk t k n) => s.setStrand u (m.take t k n)
    | _ => s)

/-- SIGK_ROOM (R423): a waiting SIGK finds room and adds. -/
def execSigkRoom (loc : Loc) (st : Stream) (s : State) : Host.Outcome State Fault Refusal :=
  .next (match s.waiting loc st .room with
    | some (u, m, .sigk t k n) => s.setStrand u (m.signal t k n)
    | _ => s)

/-! ### Arrival counters (R147, R148) -/

/-- An arrival counter as a 128-bit number: BYTES, PHASE, ERRS, CAUSE, SLOT, OVR, EXPECT, PENDING. -/
structure Arrival where
  bytes : Nat
  phase : Bool
  errs : Nat
  cause : Nat
  slot : Nat
  ovr : Bool
  expect : Nat
  pending : Nat
  deriving DecidableEq, Repr

def arrivalOf (v : Nat) : Arrival :=
  { bytes := v % 2 ^ 32, phase := v / 2 ^ 32 % 2 = 1, errs := v / 2 ^ 40 % 256, cause := v / 2 ^ 48 % 256
    slot := v / 2 ^ 56 % 64, ovr := v / 2 ^ 63 % 2 = 1, expect := v / 2 ^ 64 % 2 ^ 32, pending := v / 2 ^ 96 % 2 ^ 32 }

def Arrival.toNat (a : Arrival) : Nat :=
  a.bytes + b2n a.phase * 2 ^ 32 + a.errs * 2 ^ 40 + a.cause * 2 ^ 48 + a.slot * 2 ^ 56 + b2n a.ovr * 2 ^ 63 +
    a.expect * 2 ^ 64 + a.pending * 2 ^ 96

/-- `arinit(ac, n)`. -/
def Arrival.init (a : Arrival) (n : Nat) : Arrival :=
  { a with expect := n, bytes := n, errs := 0, cause := 0, slot := 0, ovr := false
           phase := if n = 0 then !a.phase else a.phase }

/-- `issue(ac)`. -/
def Arrival.issue (a : Arrival) : Arrival := { a with pending := (a.pending + 1) % 2 ^ 32 }

/-- `arrive(ac, b)`; the fuel bounds the phases that `b` bytes can end. -/
def Arrival.arrive (a : Arrival) (b : Nat) : Nat → Arrival
  | 0 => a
  | fuel + 1 =>
    if b = 0 then a
    else if a.expect = 0 then { a with ovr := true }
    else
      let t := min b a.bytes
      let left := a.bytes - t
      if left = 0 then
        ({ a with bytes := a.expect, phase := !a.phase, ovr := a.ovr || b - t > 0 }).arrive (b - t) fuel
      else ({ a with bytes := left }).arrive (b - t) fuel

/-- `finish(ac)`, and leaving PENDING at an abandonment. -/
def Arrival.finish (a : Arrival) : Arrival := { a with pending := (a.pending + 2 ^ 32 - 1) % 2 ^ 32 }

/-- `fault(ac, cause, slot)`. -/
def Arrival.fault (a : Arrival) (cause slot : Nat) : Arrival :=
  { a with cause := if a.errs = 0 then cause else a.cause, slot := if a.errs = 0 then slot else a.slot
           errs := min (a.errs + 1) 255 }

/-- The check of a counter's address (R147, R342): in LS, and 16-byte aligned. -/
def State.counterCheck (s : State) (gang : Nat) (va : Word) : Option (BitVec 8 × Word) :=
  match s.lsOutside gang va 1 with
  | some a => some (cADDR_RANGE, a)
  | none => if va.toNat % 16 ≠ 0 then some (cALIGN, va) else none

/-- Changes a counter in one step; a counter in an unbound segment stalls the access (R157). -/
def State.counterUpd (s : State) (c : Client) (va : Word) (f : Arrival → Arrival) : Res State :=
  match s.scratch c va with
  | .fault e => .fault e
  | .stall w => .stall w
  | .ok a => .ok (s.wr a 16 (f (arrivalOf (s.rd a 16))).toNat)

/-- ARINIT (R342). -/
def execArinit (t : Stream) (p q : Field) (_x : Bool) (s : State) : Host.Outcome State Fault Refusal :=
  onWord s t false false fun u m =>
    if fld (m.reg q) 63 32 ≠ 0 then s.raise u t cILLEGAL 0 0 else
      match s.counterCheck m.gang (m.reg p) with
      | some (e, a) => s.raise u t e a 0
      | none => if !m.streamQuiet t then s else
        match s.clientOf m with
        | none => s
        | some c => match s.counterUpd c (m.reg p) fun k => k.init (m.reg q).toNat with
          | .ok s1 => s1.done u t
          | .fault e => s.raise u t e (m.reg p) 0
          | .stall w => s.waitFor u t w

/-- ARWAIT completes when PHASE equals `h`, else waits (R344). -/
def State.arwait (s : State) (u : Nat) (m : Strand) (t : Stream) (p : Field) (h : Bool) : State :=
  match s.counterCheck m.gang (m.reg p) with
  | some (e, a) => s.raise u t e a 0
  | none => match s.clientOf m with
    | none => s
    | some c => match s.scratch c (m.reg p) with
      | .fault e => s.raise u t e (m.reg p) 0
      | .stall w => s.waitFor u t w
      | .ok a => if (arrivalOf (s.rd a 16)).phase = h then s.done u t else s.waitFor u t .arwait

/-- ARWAIT (R344). -/
def execArwait (t : Stream) (p : Field) (_x : Bool) (h : Bool) (s : State) : Host.Outcome State Fault Refusal :=
  onWord s t false false fun u m => s.arwait u m t p h

/-- ARWAIT_DONE (R149, R344). -/
def execArwaitDone (loc : Loc) (st : Stream) (s : State) : Host.Outcome State Fault Refusal :=
  .next (match s.waiting loc st .arwait with
    | some (u, m, .arwait t p _ h) => s.arwait u m t p h
    | _ => s)

/-! ### Full-empty bits -/

/-- The checks of a range of full-empty bits, in order (R377), and its granules. FADDR of ALIGN is the base also where only the length is
not a multiple of 16, for which R377 names no address (log 121). -/
def State.feRange (s : State) (c : Client) (base len : Word) : RangeRes ⊕ List Nat :=
  if len = 0 || len.toNat > 65536 then .inl (.fault cILLEGAL 0 c.die)
  else if base.toNat % 16 ≠ 0 || len.toNat % 16 ≠ 0 then .inl (.fault cALIGN base c.die)
  else match s.lsOutside c.gang base len.toNat with
    | some a => .inl (.fault cADDR_RANGE a c.die)
    | none => match s.lsGranules c base len.toNat with
      | .ok l => .inr l
      | .fault e => .inl (.fault e base c.die)
      | .stall w => .inl (.stall w)

/-- FSET and FCLR (R377): one step over the whole range, after the stream's earlier scratchpad effects (R144). -/
def feSet (s : State) (t : Stream) (p q : Field) (f : State → Nat → State) : Host.Outcome State Fault Refusal :=
  onWord s t false false fun u m =>
    match s.clientOf m with
    | none => s
    | some c => match s.feRange c (m.reg p) (m.reg q) with
      | .inl (.fault e a _) => s.raise u t e a 0
      | .inl (.stall w) => s.waitFor u t w
      | .inl (.ok _) => s
      | .inr l => if !m.streamQuiet t then s else (l.foldl f s).done u t

/-- FSET (R377). -/
def execFset (t : Stream) (p q : Field) (_x : Bool) (s : State) : Host.Outcome State Fault Refusal :=
  feSet s t p q State.setFull

/-- FCLR (R377). -/
def execFclr (t : Stream) (p q : Field) (_x : Bool) (s : State) : Host.Outcome State Fault Refusal :=
  feSet s t p q State.setEmpty

/-- LDF (R388): its address is checked in the order of R174, orders 1 to 3; it waits for its granule, reads, and leaves the bit full
or empties it, in one step. -/
def State.ldf (s : State) (u : Nat) (m : Strand) (d a : Field) (sz : BitVec 2) (o : BitVec 10) (clear : Bool) : State :=
  let va := scalarEa m a sz o
  let n := 2 ^ sz.toNat
  if fld va 63 57 ≠ 0 then s.raise u .c cADDR_RANGE va 0
  else if va.toNat % n ≠ 0 then s.raise u .c cALIGN va 0
  else match s.lsOutside m.gang va 1 with
  | some _ => s.raise u .c cADDR_RANGE va 0
  | none => match s.clientOf m with
    | none => s
    | some c => match s.scratch c va with
      | .fault e => s.raise u .c e va 0
      | .stall w => s.waitFor u .c w
      | .ok addr => match granuleOf addr with
        | none => s.raise u .c cADDR_RANGE va 0
        | some g =>
          if !s.full g then s.waitFor u .c .fe
          else
            let s1 := if clear then s.setEmpty g else s
            s1.upd u fun m => (m.setReg d (wd (s.rd addr n))).retire .c

/-- LDF.K (R388). -/
def execLdfK (d a : Field) (sz : BitVec 2) (o : BitVec 10) (s : State) : Host.Outcome State Fault Refusal :=
  onWord s .c false false fun u m => s.ldf u m d a sz o false

/-- LDF.C (R388). -/
def execLdfC (d a : Field) (sz : BitVec 2) (o : BitVec 10) (s : State) : Host.Outcome State Fault Refusal :=
  onWord s .c false false fun u m => s.ldf u m d a sz o true

/-- WAITF (R475): waits until every granule is full, then leaves the bits or clears them all, in one step. -/
def State.waitf (s : State) (u : Nat) (m : Strand) (p q : Field) (clear : Bool) : State :=
  match s.clientOf m with
  | none => s
  | some c => match s.feRange c (m.reg p) (m.reg q) with
    | .inl (.fault e a _) => s.raise u .c e a 0
    | .inl (.stall w) => s.waitFor u .c w
    | .inl (.ok _) => s
    | .inr l =>
      if !l.all s.full then s.waitFor u .c .fe
      else (if clear then l.foldl State.setEmpty s else s).done u .c

/-- WAITF.K (R475). -/
def execWaitfK (p q : Field) (s : State) : Host.Outcome State Fault Refusal :=
  onWord s .c false false fun u m => s.waitf u m p q false

/-- WAITF.C (R475). -/
def execWaitfC (p q : Field) (s : State) : Host.Outcome State Fault Refusal :=
  onWord s .c false false fun u m => s.waitf u m p q true

end Sys2Proof.Machine
end

