-- ==== Sys2Proof/Machine/TileMem.lean ====
section
/-! DEFINITION. Tile loads and stores, the codebook load and TMOV (R245, R362, R436 to R443), and the step that ends a wait
on full-empty bits (R143). -/

namespace Sys2Proof.Machine

/-- Effective address of a word of format TM: the offset counts units of 16 bytes (R300, R436). -/
def tileEa (m : Strand) (b : Field) (o : BitVec 12) : Word := m.reg b + (o.signExtend 64 <<< 4)

/-- Bytes of a tile's image in memory (R436). -/
def imageBytes (cfg : Word) : Nat := 16 * ceilDiv (cfgRows cfg * cfgCols cfg * cfgWidth (cfgFmt cfg)) 128

/-- The tile that a word names, if it is configured; otherwise the word raises TILE_CONFIG with its name. -/
def Strand.typedTile (m : Strand) (t : Stream) (n : Field) : Option Tile :=
  match m.tile t n with
  | none => none
  | some k => if k.configured then some k else none

/-- The low `n` bytes of an image replaced, the rest kept (R437). -/
def lowBytes (img : BitVec 32768) (n v : Nat) : BitVec 32768 :=
  BitVec.ofNat 32768 (img.toNat / 2 ^ (8 * n) * 2 ^ (8 * n) + v % 2 ^ (8 * n))

/-- The shared part of the four tile words: the checks of R436 in order; `f` has the tile, the effective address and the
length. -/
def onTileMem (s : State) (t : Stream) (n b : Field) (o : BitVec 12) (ls : Bool)
    (f : Nat → Strand → Client → Tile → Word → Nat → State) : Host.Outcome State Fault Refusal :=
  onWord s t false false fun u m =>
    match m.typedTile t n, s.clientOf m with
    | none, _ => s.raise u t cTILE_CONFIG (wd n.toNat) 0
    | _, none => s
    | some k, some c =>
      let ea := tileEa m b o
      let len := imageBytes k.cfg
      if ea.toNat % 16 ≠ 0 then s.raise u t cALIGN ea 0
      else match (if ls then s.lsOutside m.gang ea len else none) with
        | some a => s.raise u t cADDR_RANGE a 0
        | none => f u m c k ea len

/-- TLD: the bytes at `ea` become the tile's image (R437). -/
def State.tld (s : State) (u : Nat) (t : Stream) (c : Client) (k : Tile) (ea : Word) (len : Nat) : State :=
  match s.checkRange c ea len false with
  | (s1, .fault e a _) => s1.raise u t e a 0
  | (s1, .stall w) => s1.waitFor u t w
  | (s1, .ok parts) => (s1.setImage k (lowBytes (s1.image k) len (s1.readParts parts))).done u t

/-- TLD (R436, R437). -/
def execTld (n b : Field) (o : BitVec 12) (s : State) : Host.Outcome State Fault Refusal :=
  onTileMem s .l n b o false fun u _ c k ea len => s.tld u .l c k ea len

/-- TST (R436, R437): an engine write. -/
def execTst (n b : Field) (o : BitVec 12) (s : State) : Host.Outcome State Fault Refusal :=
  onTileMem s .s n b o false fun u _ c k ea len =>
    match s.checkRange c ea len true with
    | (s1, .fault e a _) => s1.raise u .s e a 0
    | (s1, .stall w) => s1.waitFor u .s w
    | (s1, .ok parts) => (s1.writeParts ((s1.image k).toNat % 2 ^ (8 * len)) parts).done u .s

/-- TLDK: waits until the range is full, then reads and empties it in one step (R438). -/
def State.tldk (s : State) (u : Nat) (c : Client) (k : Tile) (ea : Word) (len : Nat) : State :=
  match s.checkRange c ea len false, s.lsGranules c ea len with
  | (s1, .fault e a _), _ => s1.raise u .l e a 0
  | (s1, .stall w), _ => s1.waitFor u .l w
  | (s1, .ok parts), .ok gs =>
    if !gs.all s1.full then s1.waitFor u .l .fe
    else (gs.foldl State.setEmpty (s1.setImage k (lowBytes (s1.image k) len (s1.readParts parts)))).done u .l
  | (s1, .ok _), .fault e => s1.raise u .l e ea 0
  | (s1, .ok _), .stall w => s1.waitFor u .l w

/-- TSTK: waits until the range is empty, then writes and fills it in one step (R438). -/
def State.tstk (s : State) (u : Nat) (c : Client) (k : Tile) (ea : Word) (len : Nat) : State :=
  match s.checkRange c ea len true, s.lsGranules c ea len with
  | (s1, .fault e a _), _ => s1.raise u .s e a 0
  | (s1, .stall w), _ => s1.waitFor u .s w
  | (s1, .ok parts), .ok gs =>
    if gs.any s1.full then s1.waitFor u .s .fe
    else (s1.writeParts ((s1.image k).toNat % 2 ^ (8 * len)) parts).done u .s
  | (s1, .ok _), .fault e => s1.raise u .s e ea 0
  | (s1, .ok _), .stall w => s1.waitFor u .s w

/-- TLDK (R436, R438). -/
def execTldk (n b : Field) (o : BitVec 12) (s : State) : Host.Outcome State Fault Refusal :=
  onTileMem s .l n b o true fun u _ c k ea len => s.tldk u c k ea len

/-- TSTK (R436, R438). -/
def execTstk (n b : Field) (o : BitVec 12) (s : State) : Host.Outcome State Fault Refusal :=
  onTileMem s .s n b o true fun u _ c k ea len => s.tstk u c k ea len

/-- A waiting tile word tries again, its operands being as they were (R47). -/
def State.tileAgain (s : State) (t : Stream) (m : Strand) (n b : Field) (o : BitVec 12)
    (f : Client → Tile → Word → Nat → State) : State :=
  match m.typedTile t n, s.clientOf m with
  | some k, some c => f c k (tileEa m b o) (imageBytes k.cfg)
  | _, _ => s

/-- FULL_EMPTY_WAIT_DONE (R143, R388, R438, R475). -/
def execFullEmptyWaitDone (loc : Loc) (st : Stream) (s : State) : Host.Outcome State Fault Refusal :=
  .next (match s.waiting loc st .fe with
    | some (u, m, .ldfK d a sz o) => s.ldf u m d a sz o false
    | some (u, m, .ldfC d a sz o) => s.ldf u m d a sz o true
    | some (u, m, .waitfK p q) => s.waitf u m p q false
    | some (u, m, .waitfC p q) => s.waitf u m p q true
    | some (u, m, .tldk n b o) => s.tileAgain .l m n b o fun c k ea len => s.tldk u c k ea len
    | some (u, m, .tstk n b o) => s.tileAgain .s m n b o fun c k ea len => s.tstk u c k ea len
    | _ => s)

/-! ### TLDT -/

/-- Progress that a stopped multi-part word has left at its position (R244 to R247). -/
def Strand.progAt (m : Strand) (pos : Nat) : Option Progress := m.prog.find? fun p => p.pos = pos

def Strand.setProg (m : Strand) (p : Progress) : Strand :=
  { m with prog := (m.prog.filter fun q => q.pos ≠ p.pos) ++ [p] }

def Strand.dropProg (m : Strand) (pos : Nat) : Strand := { m with prog := m.prog.filter fun q => q.pos ≠ pos }

/-- How a multi-part word ends for now. -/
inductive PartEnd where
  | done
  | fault (cause : BitVec 8) (addr : Word)
  | stall (w : Wait)
  deriving DecidableEq, Repr

/-- The pieces of block `b` of column group `j`: address and bytes of each of its 16 source rows (R245, R441). -/
def tldtRows (ea : Word) (rows width j b : Nat) : List (Nat × Nat) :=
  (List.range 16).map fun i =>
    ((ea.toNat + (16 * b + i) * (rows * width / 8) + 4 * j * (width / 8)) % 2 ^ 64, 4 * (width / 8))

/-- Writes a block into the image: source element (16b + i, 4j + k) goes to destination element (4j + k, 16b + i). -/
def tldtPut (img : BitVec 32768) (cols width j b : Nat) (data : List Nat) : BitVec 32768 :=
  (List.range 16).foldl (fun v i => (List.range 4).foldl (fun w k =>
    putBits w (((4 * j + k) * cols + 16 * b + i) * width) width (data.getD i 0 / 2 ^ (k * width))) v) img

/-- The blocks of a TLDT from one on, in order; `todo` counts those left. -/
def State.tldtBlocks (s : State) (u : Nat) (c : Client) (k : Tile) (ea : Word) (pos : Nat) (bs : Nat) :
    Nat → Nat → Nat → State
  | 0, _, _ => s.upd u fun m => (m.dropProg pos).retire .l
  | fuel + 1, j, b =>
    let w := cfgWidth k.fmt
    match s.checkParts c false (tldtRows ea k.rows w j b) with
    | (s1, .fault e a _) =>
      (s1.upd u fun m => m.setProg ⟨pos, j, b, 0, false, false⟩).raise u .l e a (fprog 2 (j + b * 2 ^ 16))
    | (s1, .stall x) => s1.upd u fun m => (m.setProg ⟨pos, j, b, 0, false, true⟩).setWait .l x
    | (s1, .ok parts) =>
      let img := tldtPut (s1.image k) k.cols w j b (parts.map fun p => s1.rd p.addr p.bytes)
      let nb := if b + 1 = bs then 0 else b + 1
      let nj := if b + 1 = bs then j + 1 else j
      (s1.setImage k img).tldtBlocks u c k ea pos bs fuel nj nb

/-- TLDT (R440, R441). FPROG of an issue check that fails is 0 (log 118). -/
def execTldt (n b : Field) (o : BitVec 12) (s : State) : Host.Outcome State Fault Refusal :=
  onWord s .l false false fun u m =>
    match m.typedTile .l n, s.clientOf m with
    | none, _ => s.raise u .l cTILE_CONFIG (wd n.toNat) 0
    | _, none => s
    | some k, some c =>
      let ea := tileEa m b o
      let w := cfgWidth k.fmt
      if !(k.ok [0x0, 0x1, 0x2, 0x3, 0x4, 0x8, 0x9, 0xC, 0xD]) || k.rows % 4 ≠ 0 || k.cols % 16 ≠ 0 then
        s.raise u .l cTILE_CONFIG (wd n.toNat) 0
      else if ea.toNat % 16 ≠ 0 then s.raise u .l cALIGN ea 0
      else
        let p := (m.progAt m.l.pos).getD ⟨m.l.pos, 0, 0, 0, false, false⟩
        let bs := k.cols / 16
        if w = 0 then s else
          s.tldtBlocks u c k ea m.l.pos bs (k.rows / 4 * bs - (p.count * bs + p.part)) p.count p.part

/-! ### CBLD -/

/-- CBLD (R105, R362). -/
def execCbld (b : Field) (o : BitVec 12) (s : State) : Host.Outcome State Fault Refusal :=
  onWord s .l false false fun u m =>
    match s.clientOf m, m.place with
    | some c, some loc =>
      let ea := tileEa m b o
      if ea.toNat % 16 ≠ 0 then s.raise u .l cALIGN ea 0
      else match s.checkRange c ea 1024 false with
        | (s1, .fault e a _) => s1.raise u .l e a 0
        | (s1, .stall w) => s1.waitFor u .l w
        | (s1, .ok parts) =>
          State.done { s1 with books := tabSet s1.books 0 (locCore loc) (BitVec.ofNat 8192 (s1.readParts parts)) } u .l
    | _, _ => s

/-! ### TMOV -/

/-- The first byte of a range that lies in no scratchpad region of the strand (R138, R139). -/
def State.padOutside (s : State) (c : Client) (va : Word) (len : Nat) : Option Word :=
  let off := fld va 51 0
  let limit : Nat :=
    if off < 0x1000000 then s.lsRegion c.gang * 65536
    else match s.rank? c.rank with
      | none => 0
      | some r =>
        if off < 0x2000000 then 0x1000000 + r.csseg * 65536
        else if 0x4000000 ≤ off then 0x4000000 + r.ds.length * 65536
        else 0
  if fld va 63 52 ≠ 31 || off ≥ limit then some va
  else if off + len > limit then some (wd (31 * 2 ^ 52 + limit))
  else none

/-- TMOV (R443). Where both regions break the same check, FADDR names the destination (log 103). -/
def tmov (t : Stream) (p q : Field) (s : State) : Host.Outcome State Fault Refusal :=
  onWord s t false false fun u m =>
    match s.clientOf m with
    | none => s
    | some c =>
      let dst := m.reg p
      let src := m.reg q
      let apart := dst.toNat + 4096 ≤ src.toNat || src.toNat + 4096 ≤ dst.toNat
      match s.padOutside c dst 4096, s.padOutside c src 4096 with
      | some a, _ => s.raise u t cADDR_RANGE a 0
      | none, some a => s.raise u t cADDR_RANGE a 0
      | none, none =>
        if dst.toNat % 16 ≠ 0 then s.raise u t cALIGN dst 0
        else if src.toNat % 16 ≠ 0 then s.raise u t cALIGN src 0
        else if !apart && dst ≠ src then s.raise u t cILLEGAL 0 0
        else match s.checkRange c src 4096 false with
          | (s1, .fault e a _) => s1.raise u t e a 0
          | (s1, .stall w) => s1.waitFor u t w
          | (s1, .ok from_) => match s1.checkRange c dst 4096 true with
            | (s2, .fault e a _) => s2.raise u t e a 0
            | (s2, .stall w) => s2.waitFor u t w
            | (s2, .ok to_) => (s2.writeParts (s2.readParts from_) to_).done u t

/-- TMOV (R442, R443): the L stream or the S stream. -/
def execTmov (st : Bool) (p q : Field) (_x : Bool) (s : State) : Host.Outcome State Fault Refusal :=
  tmov (if st then .s else .l) p q s

end Sys2Proof.Machine
end

