-- ==== Sys2Proof/Machine/Vector.lean ====
section
/-! DEFINITION. The element words of the vector unit (R455, R456, R459, R461, R464, R465, R467, R474). -/

namespace Sys2Proof.Machine

/-- Addition with the zero signs of R109. -/
def addMode (mode : Mode) (a b : Val) : Val := Val.add (mode == .rdn) a b

/-- VADD (R456). -/
def execVadd (d a b : Field) (r : BitVec 3) (s : State) : Host.Outcome State Fault Refusal :=
  onElems s d a b fltFmts r fun m mode f l x y _ => .rnd f mode m.ieee l (addMode mode x y)

/-- VSUB (R456). -/
def execVsub (d a b : Field) (r : BitVec 3) (s : State) : Host.Outcome State Fault Refusal :=
  onElems s d a b fltFmts r fun m mode f l x y _ => .rnd f mode m.ieee l (addMode mode x y.flip)

/-- VMUL (R456). -/
def execVmul (d a b : Field) (r : BitVec 3) (s : State) : Host.Outcome State Fault Refusal :=
  onElems s d a b fltFmts r fun m mode f l x y _ => .rnd f mode m.ieee l (x.mul y)

/-- VFMA (R464): one rounding of the exact a × b + d. -/
def execVfma (d a b : Field) (r : BitVec 3) (s : State) : Host.Outcome State Fault Refusal :=
  onElems s d a b fltFmts r fun m mode f l x y z => .rnd f mode m.ieee l (addMode mode (x.mul y) z)

/-- VFMS (R464). -/
def execVfms (d a b : Field) (r : BitVec 3) (s : State) : Host.Outcome State Fault Refusal :=
  onElems s d a b fltFmts r fun m mode f l x y z => .rnd f mode m.ieee l (addMode mode (x.mul y) z.flip)

/-- VFNMA (R464). -/
def execVfnma (d a b : Field) (r : BitVec 3) (s : State) : Host.Outcome State Fault Refusal :=
  onElems s d a b fltFmts r fun m mode f l x y z => .rnd f mode m.ieee l (addMode mode z (x.mul y).flip)

/-! ### Minimum, maximum, absolute value, negation, comparison -/

/-- An element's value, integers as signed or unsigned. -/
def elemVal (code : Nat) (unsigned : Bool) (bits : Nat) : Val := if unsigned then .ofInt bits else decElem code bits

/-- The bits of the greater or lesser of two elements (R467). -/
def pickElem (code : Nat) (unsigned num max : Bool) (a b : Nat) : Nat :=
  let (x, y) := (elemVal code unsigned a, elemVal code unsigned b)
  if x.isNan || y.isNan then
    if num && !x.isNan then a else if num && !y.isNan then b else (fmtOf code).nan
  else if x.lt true y then (if max then b else a) else (if max then a else b)

/-- VMIN and VMAX: `.U` is for integers only (R467). -/
def vpick (s : State) (d a b : Field) (u num max : Bool) : Host.Outcome State Fault Refusal :=
  onRaw s d a b vecFmts (fun t => !(u && fltFmts.contains t.fmt)) fun code x y => .plain (pickElem code u num max x y)

/-- VMIN (R467). -/
def execVmin (d a b : Field) (u q : Bool) (s : State) : Host.Outcome State Fault Refusal := vpick s d a b u q false

/-- VMAX (R467). -/
def execVmax (d a b : Field) (u q : Bool) (s : State) : Host.Outcome State Fault Refusal := vpick s d a b u q true

/-- The absolute value or the negation of an element (R455). -/
def absNeg (code : Nat) (neg : Bool) (a : Nat) : Elem :=
  let f := fmtOf code
  let top := 2 ^ (f.width - 1)
  if f.isInt then
    if a = top then ⟨⟨top - 1, true, false⟩, false⟩
    else .plain (if neg || a > top then (2 ^ f.width - a) % 2 ^ f.width else a)
  else if (decElem code a).isNan then .plain f.nan
  else .plain (if neg then (a + top) % 2 ^ f.width else a % top)

/-- VABS (R455). -/
def execVabs (d a : Field) (s : State) : Host.Outcome State Fault Refusal :=
  onRaw s d a a vecFmts (fun _ => true) fun code x _ => absNeg code false x

/-- VNEG (R455). -/
def execVneg (d a : Field) (s : State) : Host.Outcome State Fault Refusal :=
  onRaw s d a a vecFmts (fun _ => true) fun code x _ => absNeg code true x

/-- The condition of VCMP (R459). -/
def cmpHolds (c : BitVec 3) (x y : Val) : Bool :=
  let un := x.isNan || y.isNan
  match c.toNat with
  | 0 => x.eq y
  | 1 => !x.eq y
  | 2 => x.lt false y
  | 3 => !un && !y.lt false x
  | 4 => y.lt false x
  | 5 => !un && !x.lt false y
  | _ => un

/-- VCMP (R459), with its own order of checks. -/
def execVcmp (d a b : Field) (u : Bool) (c : BitVec 3) (s : State) : Host.Outcome State Fault Refusal :=
  onVec s fun v m => do
    let td ← m.vTile d intFmts
    let ta ← m.vTile a vecFmts
    if u && fltFmts.contains ta.fmt then .error a
    let tb ← m.vLike ta b
    let w := cfgWidth ta.fmt
    if cfgWidth td.fmt ≠ w || !td.sameShape ta then .error d
    let (ia, ib) := (s.image ta, s.image tb)
    let at_ := fun (i : BitVec 32768) (k : Nat) => elemVal ta.fmt u (elemBits i w k)
    .ok ((s.elems v m td .rne fun k _ => .plain (if cmpHolds c (at_ ia k) (at_ ib k) then 2 ^ w - 1 else 0)).done v .x)

/-! ### Integers -/

/-- An exact integer result in a signed format: wrapped, or clamped with a count (R465). -/
def intElem (w : Nat) (sat : Bool) (i : Int) : Elem :=
  let top : Int := 2 ^ (w - 1)
  if sat && i ≥ top then ⟨⟨(top - 1).toNat, true, false⟩, false⟩
  else if sat && i < -top then ⟨⟨top.toNat, true, false⟩, false⟩
  else .plain (i % 2 ^ w).toNat

def intWord (s : State) (d a b : Field) (sat : Bool) (op : Int → Int → Int) : Host.Outcome State Fault Refusal :=
  onRaw s d a b intFmts (fun _ => true) fun code x y =>
    let w := (fmtOf code).width
    intElem w sat (op (BitVec.ofNat w x).toInt (BitVec.ofNat w y).toInt)

/-- VIADD (R465). -/
def execViadd (d a b : Field) (sat : Bool) (s : State) : Host.Outcome State Fault Refusal := intWord s d a b sat (· + ·)

/-- VISUB (R465). -/
def execVisub (d a b : Field) (sat : Bool) (s : State) : Host.Outcome State Fault Refusal := intWord s d a b sat (· - ·)

/-- VIMUL (R465). -/
def execVimul (d a b : Field) (sat : Bool) (s : State) : Host.Outcome State Fault Refusal := intWord s d a b sat (· * ·)

/-- The shifts (R474): a count of the width or more gives 0, or all sign bits. -/
def shiftElem (op : BitVec 2) (w a c : Nat) : Nat :=
  let neg := a ≥ 2 ^ (w - 1)
  if c ≥ w then (if op = 2 && neg then 2 ^ w - 1 else 0)
  else match op.toNat with
    | 0 => a * 2 ^ c % 2 ^ w
    | 1 => a / 2 ^ c
    | _ => if neg then 2 ^ w - 1 - (2 ^ w - 1 - a) / 2 ^ c else a / 2 ^ c

def shiftWord (s : State) (d a b : Field) (i : Bool) (op : BitVec 2) : Host.Outcome State Fault Refusal :=
  if i then onRaw s d a a intFmts (fun _ => true) fun code x _ => .plain (shiftElem op (fmtOf code).width x b.toNat)
  else onRaw s d a b intFmts (fun _ => true) fun code x y => .plain (shiftElem op (fmtOf code).width x y)

/-- VSHL (R474). -/
def execVshl (d a b : Field) (i : Bool) (s : State) : Host.Outcome State Fault Refusal := shiftWord s d a b i 0

/-- VSHR (R474). -/
def execVshr (d a b : Field) (i : Bool) (s : State) : Host.Outcome State Fault Refusal := shiftWord s d a b i 1

/-- VSRA (R474). -/
def execVsra (d a b : Field) (i : Bool) (s : State) : Host.Outcome State Fault Refusal := shiftWord s d a b i 2

/-! ### Conversion -/

/-- The quotient of a finite value by a scale that is a finite number and not zero. -/
def Val.over (v scale : Val) : Val :=
  match v, scale with
  | .fin neg n d e, .fin _ sn sd se => .fin neg (n * sd) (d * sn) (e - se)
  | w, _ => w

/-- One element of VCVT (R461). A zero or NaN scale of the destination is no rounding. -/
def cvtElem (f : Fmt) (mode : Mode) (ieee : Bool) (l : BitVec 32) (scale : Option Val) (v : Val) : Elem :=
  match scale with
  | none => .rnd f mode ieee l v
  | some sc =>
    if sc.isNan || sc.isZero then
      if v.isNan then ⟨f.rnd .rne ieee l .nan, false⟩
      else ⟨⟨(f.rnd .rne ieee l (.zero v.neg)).bits, !v.isZero, false⟩, false⟩
    else .rnd f mode ieee l (v.over sc)

/-- Formats that VCVT reads and writes (R461). -/
def cvtFrom : List Nat := [0x0, 0x1, 0x2, 0x3, 0x4, 0x5, 0x6, 0x7, 0x8, 0x9, 0xA, 0xB, 0xC, 0xD]
def cvtTo : List Nat := [0x0, 0x1, 0x2, 0x3, 0x4, 0x5, 0x6, 0x7, 0x8, 0x9, 0xA, 0xC, 0xD]

/-- VCVT (R461). The scale bytes of enabled elements are read, those of the destination first. -/
def execVcvt (d a : Field) (r : BitVec 3) (s : State) : Host.Outcome State Fault Refusal :=
  onVec s fun u m => do
    let td ← m.vTile d cvtTo
    let ta ← m.vTile a cvtFrom
    if !ta.sameShape td then .error a
    let w := cfgWidth td.fmt
    let on := fun (k : Nat) => m.mask.getLsbD (laneOf w k)
    let bd := td.blocks td.count on
    let ba := ta.blocks td.count on
    let mode := m.mode r
    .ok (match s.clientOf m, m.place with
      | some c, some loc => match s.scaleBytes c td.cfg bd, s.scaleBytes c ta.cfg ba with
        | .inl (.fault e x _), _ => s.raise u .x e x 0
        | _, .inl (.fault e x _) => s.raise u .x e x 0
        | .inl (.stall x), _ => s.waitFor u .x x
        | _, .inl (.stall x) => s.waitFor u .x x
        | .inr pd, .inr pa =>
          let ia := s.image ta
          let book := tabAt s.books 0 (locCore loc)
          let zero := fun (t : Tile) (plane : Nat) (l : List Nat) =>
            l.any fun b => (decScale (cfgUe4m3 t.cfg) (plane / 2 ^ (8 * b) % 256)).isZero
          let s1 := s.elems u m td mode fun k l =>
            cvtElem (fmtOf td.fmt) mode m.ieee l (if td.scaled then some (td.scaleOf pd k) else none) (ta.dec book ia pa k)
          let s2 := s1.upd u fun x => (x.status td.slot 0 (zero td pd bd) false).status ta.slot 0 (zero ta pa ba) false
          s2.done u .x
        | _, _ => s
      | _, _ => s)

end Sys2Proof.Machine
end

