-- ==== Sys2Proof/Machine/IndexWalk.lean ====
section
/-! DEFINITION. The index walks: GATHER, GRED, SCAT, SCATA and UPD (R246, R380 to R385, R414 to R419, R452 to R454). -/

namespace Sys2Proof.Machine

/-! ### What they share -/

/-- Two byte ranges meet. -/
def overlaps (a la b lb : Nat) : Bool := la ≠ 0 && lb ≠ 0 && a < b + lb && b < a + la

/-- Bytes of a transfer that stopped: each aligned 8-byte word holds the old bytes or the new ones (R215, R244, R381), and so does what
is left beyond the last whole one. A granule of LS becomes full once all its words are new. -/
def State.tear (s : State) (addr bytes v : Nat) : State :=
  (List.range ((bytes + 15) / 16)).foldl (fun (acc : State) i =>
    let (k, s1) := acc.draw
    let (l, s2) := s1.draw
    let lo := Config.tornTakesNew k
    let hi := Config.tornTakesNew l
    let a := addr + 16 * i
    let n := min 16 (bytes - 16 * i)
    let s3 := if lo then s2.wr a (min 8 n) (v / 2 ^ (128 * i) % 2 ^ 64) else s2
    let s4 := if hi then s3.wr (a + 8) (n - 8) (v / 2 ^ (128 * i + 64) % 2 ^ 64) else s3
    if lo && (hi || n ≤ 8) then s4.fillGranules a n else s4) s

/-- As `tear`, over the parts of a range. -/
def State.tearParts (s : State) (v : Nat) : List Part → State
  | [] => s
  | p :: r => (s.tear p.addr p.bytes v).tearParts (v / 2 ^ (8 * p.bytes)) r

/-- The loop over index entries from `e` on (R246); `todo` counts those left. The body has the entry and its row, or no row
where the policy puts zeros; a skipped entry has no effect. -/
def indexLoop (c : Client) (list : Word) (ntab : Nat) (policy : BitVec 2)
    (body : State → Nat → Option Nat → State × PartEnd) : Nat → Nat → State → State × Nat × PartEnd
  | 0, e, s => (s, e, .done)
  | todo + 1, e, s =>
    let at_ := list + wd (4 * e)
    match s.readVa c at_ 4 with
    | (s1, .fault k) => (s1, e, .fault k at_)
    | (s1, .stall w) => (s1, e, .stall w)
    | (s1, .ok x) =>
      let go := fun (row : Option Nat) => match body s1 e row with
        | (s2, .done) => indexLoop c list ntab policy body todo (e + 1) s2
        | (s2, r) => (s2, e, r)
      if x < ntab then go (some x)
      else match policy.toNat with
        | 0 => (s1, e, .fault cINDEX_RANGE at_)
        | 1 => go none
        | 2 => indexLoop c list ntab policy body todo (e + 1) s1
        | _ => go (some (ntab - 1))

/-- The word ends, stops with a fault of kind 4 (R240), or waits, with its progress kept (R246). -/
def State.endWalk (u : Nat) (t : Stream) (pos : Nat) (out : State × Nat × PartEnd) : State :=
  let keep := fun (live : Bool) => (⟨pos, out.2.1, 0, 0, false, live⟩ : Progress)
  match out.2.2 with
  | .done => out.1.upd u fun k => { (k.dropProg pos).retire t with taker := if t = .l then none else k.taker }
  | .fault e a => (out.1.upd u fun k => k.setProg (keep false)).raise u t e a (fprog 4 out.2.1)
  | .stall w => out.1.upd u fun k => (k.setProg (keep (out.2.1 ≠ 0))).setWait t w

/-- The entry at which a word starts, or goes on after a restart. -/
def Strand.walkStart (m : Strand) (t : Stream) : Nat := ((m.progAt (m.stream t).pos).map (·.count)).getD 0

/-- A fault of one of the issue checks. -/
abbrev Check := Option (BitVec 8 × Word)

/-- The first check that fails. -/
def firstCheck : List Check → Check
  | [] => none
  | some c :: _ => some c
  | none :: r => firstCheck r

/-- A check with a condition, a cause and an address. -/
def check (bad : Bool) (e : BitVec 8) (a : Word) : Check := if bad then some (e, a) else none

/-! ### GATHER -/

/-- One entry of GATHER (R381). -/
def gatherRow (c : Client) (dst base : Word) (rb : Nat) (s : State) (e : Nat) (row : Option Nat) : State × PartEnd :=
  let dest := dst + wd (e * rb)
  match s.checkRange c dest rb true with
  | (s1, .fault k a _) => (s1, .fault k a)
  | (s1, .stall w) => (s1, .stall w)
  | (s1, .ok out) => match row with
    | none => (s1.writeParts 0 out, .done)
    | some x =>
      let from_ := base + wd (x * rb)
      match s1.checkRange c from_ rb false with
      | (s2, .ok parts) => (s2.writeParts (s2.readParts parts) out, .done)
      | (s2, .stall w) => (s2, .stall w)
      | (s2, .fault k a _) =>
        let n := (a - from_).toNat
        match s2.checkRange c from_ n false, s2.checkRange c dest n true with
        | (_, .ok parts), (_, .ok part) => (s2.tearParts (s2.readParts parts) part, .fault k a)
        | _, _ => (s2, .fault k a)

/-- GATHER (R380, R381). Where dst, BASE and the list are misaligned together, FADDR names the first of them in this order (log 103); an
issue check that fails has FPROG 0 (log 118). -/
def execGather (p q r : Field) (_x : Bool) (l : BitVec 2) (s : State) : Host.Outcome State Fault Refusal :=
  onWord s .l false false fun u m =>
    match s.clientOf m with
    | none => s
    | some c =>
      let (dst, list, base, d) := (m.reg p, m.reg q, m.reg r, m.reg (r + 1))
      let rb := 16 * fld d 11 0
      let nidx := fld d 31 12
      let ntab := fld d 63 32
      let len := nidx * rb
      let bad := firstCheck [
        check (rb = 0 || nidx = 0 || ntab = 0) cILLEGAL 0,
        check (dst.toNat % 16 ≠ 0) cALIGN dst, check (base.toNat % 16 ≠ 0) cALIGN base,
        check (list.toNat % 4 ≠ 0) cALIGN list,
        (s.padOutside c dst len).map fun a => (cADDR_RANGE, a),
        check (overlaps dst.toNat len list.toNat (4 * nidx) || overlaps dst.toNat len base.toNat (ntab * rb)) cILLEGAL 0]
      match bad with
      | some (e, a) => s.raise u .l e a 0
      | none =>
        let e := m.walkStart .l
        State.endWalk u .l m.l.pos (indexLoop c list ntab l (gatherRow c dst base rb) (nidx - e) e s)

/-! ### GRED -/

/-- The values of a table row (R384): FP32, or BF16 widened. -/
def rowValues (bf16 : Bool) (n v : Nat) : List Nat :=
  if bf16 then (unpackNat 16 n v).map fun x => x * 65536 else unpackNat 32 n v

/-- One entry's contribution to a bag: element by element, one rounding, or the greater. -/
def gredCombine (max ieee : Bool) (acc : Option (List Nat)) (v : List Nat) : List Nat :=
  match acc with
  | none => v.map fun x => (fFP32.rnd .rne false 0 (dec32 x)).bits
  | some l => (l.zip v).map fun e =>
    let (a, b) := (dec32 e.1, dec32 e.2)
    (fFP32.rnd .rne (ieee && !max) 0 (if max then a.maxV b else Val.add false a b)).bits

/-- The loop over the entries of one bag. -/
def gredBag (c : Client) (ibase base : Word) (ntab rb n : Nat) (policy : BitVec 2) (bf16 max ieee : Bool) :
    Nat → Nat → Option (List Nat) → State → State × Option (List Nat) × PartEnd
  | 0, _, acc, s => (s, acc, .done)
  | todo + 1, e, acc, s =>
    let at_ := ibase + wd (4 * e)
    let next := fun (a : Option (List Nat)) (x : State) => gredBag c ibase base ntab rb n policy bf16 max ieee todo (e + 1) a x
    match s.readVa c at_ 4 with
    | (s1, .fault k) => (s1, acc, .fault k at_)
    | (s1, .stall w) => (s1, acc, .stall w)
    | (s1, .ok x) =>
      let row := fun (i : Nat) =>
        match s1.checkRange c (base + wd (i * rb)) rb false with
        | (s2, .fault k a _) => (s2, acc, .fault k a)
        | (s2, .stall w) => (s2, acc, .stall w)
        | (s2, .ok parts) => next (some (gredCombine max ieee acc (rowValues bf16 n (s2.readParts parts)))) s2
      if x < ntab then row x
      else match policy.toNat with
        | 0 => (s1, acc, .fault cINDEX_RANGE at_)
        | 1 => next (some (gredCombine max ieee acc (List.replicate n 0))) s1
        | 2 => next acc s1
        | _ => row (ntab - 1)

/-- The loop over the bags (R384); a bag's row is written after its last entry. -/
def gredBags (c : Client) (dst list ibase base : Word) (ntab rb n : Nat) (policy : BitVec 2) (bf16 max ieee : Bool) :
    Nat → Nat → State → State × Nat × PartEnd
  | 0, b, s => (s, b, .done)
  | todo + 1, b, s =>
    match s.readVa c (list + wd (4 * b)) 4 with
    | (s1, .fault k) => (s1, b, .fault k (list + wd (4 * b)))
    | (s1, .stall w) => (s1, b, .stall w)
    | (s1, .ok lo) => match s1.readVa c (list + wd (4 * b + 4)) 4 with
      | (s2, .fault k) => (s2, b, .fault k (list + wd (4 * b + 4)))
      | (s2, .stall w) => (s2, b, .stall w)
      | (s2, .ok hi) => match gredBag c ibase base ntab rb n policy bf16 max ieee (hi - lo) lo none s2 with
        | (s3, acc, .done) =>
          match s3.checkRange c (dst + wd (b * (4 * n))) (4 * n) true with
          | (s4, .fault k a _) => (s4, b, .fault k a)
          | (s4, .stall w) => (s4, b, .stall w)
          | (s4, .ok parts) =>
            gredBags c dst list ibase base ntab rb n policy bf16 max ieee todo (b + 1)
              (s4.writeParts (packNat 32 (acc.getD (List.replicate n 0))) parts)
        | (s3, _, r) => (s3, b, r)

/-- What a check at issue that may have to wait comes to, if it does not pass: the page it waits for asked for, or the fault. -/
abbrev EndCheck := Option (Except State (BitVec 8 × Word))

/-- Orders 1, 3 and 4 of R174 for one end of a region (R358, R384). An entry of the endpoint table that has to be swept first, or that is
not to be had yet, is waited for (R135, R257). -/
def State.endCheck (s : State) (c : Client) (a : Word) : EndCheck :=
  if fld a 63 57 ≠ 0 then some (.ok (cADDR_RANGE, a))
  else if fld a 56 52 = 31 then match s.scratch c a with
    | .fault e => some (.ok (e, a))
    | _ => none
  else match s.resolve c a with
    | (_, .fault e) => some (.ok (e, a))
    | (s1, .stall _) => some (.error s1)
    | _ => none

/-- The ends of GRED's destination: in domain 31 the whole region as for GATHER, elsewhere its first byte and its last (log 102). -/
def State.gredEnds (s : State) (c : Client) (dst : Word) (len : Nat) : EndCheck :=
  if fld dst 56 52 = 31 && fld dst 63 57 = 0 then (s.padOutside c dst len).map fun a => .ok (cADDR_RANGE, a)
  else (s.endCheck c dst).or (s.endCheck c (dst + wd (len - 1)))

/-- GRED (R383 to R385). FPROG of an issue check that fails is 0 (R384, log 118). Which core's engine serves it (`Strand.taker`, R227) changes nothing that
it does. -/
def execGred (p q r : Field) (_x : Bool) (l : BitVec 2) (f o : Bool) (s : State) : Host.Outcome State Fault Refusal :=
  onWord s .l false false fun u m =>
    match s.clientOf m with
    | none => s
    | some c =>
      let (dst, list, base, d) := (m.reg p, m.reg q, m.reg r, m.reg (r + 1))
      let rb := 16 * fld d 11 0
      let nbag := fld d 31 12
      let ntab := fld d 63 32
      let n := if f then rb / 2 else rb / 4
      let len := nbag * (4 * n)
      let bad := firstCheck [
        check (rb = 0 || nbag = 0 || ntab = 0) cILLEGAL 0,
        check (dst.toNat % 16 ≠ 0) cALIGN dst, check (base.toNat % 16 ≠ 0) cALIGN base,
        check (list.toNat % 4 ≠ 0) cALIGN list]
      match bad, s.gredEnds c dst len with
      | some (e, a), _ => s.raise u .l e a 0
      | none, some (.ok (e, a)) => s.raise u .l e a 0
      | none, some (.error x) => x
      | none, none => match s.readVa c (list + wd (4 * nbag)) 4 with
        | (s1, .fault e) => s1.raise u .l e (list + wd (4 * nbag)) 0
        | (s1, .stall w) => s1.waitFor u .l w
        | (s1, .ok last) =>
          if overlaps dst.toNat len list.toNat (4 * (nbag + 1 + last)) || overlaps dst.toNat len base.toNat (ntab * rb) then
            s1.raise u .l cILLEGAL 0 0
          else
            let b := m.walkStart .l
            State.endWalk u .l m.l.pos (gredBags c dst list (list + wd (4 * (nbag + 1))) base ntab rb n l f o m.ieee
              (nbag - b) b s1)

/-! ### Rows that are written element by element (R419, R454) -/

/-- A piece of a table row: its address, its bytes, the answer of R174, and the die that answers for another die. -/
structure RowPiece where
  va : Nat
  bytes : Nat
  res : Res Target
  far : Option DieKey
  deriving DecidableEq, Repr

/-- The pieces of a row, each checked as a write. -/
def State.rowPieces (s : State) (c : Client) : List (Nat × Nat) → State × List RowPiece
  | [] => (s, [])
  | (va, n) :: r =>
    let out := s.accessFar c (wd va) 1 true
    let rest := out.1.rowPieces c r
    (rest.1, ⟨va, n, out.2.1, out.2.2⟩ :: rest.2)

/-- What a row must not meet before any of its elements change: a stall, or a fault that is precise. `away` says that the
word's other table lies on another die, so that only orders 1 to 4 are precise (R454). -/
def rowStop (away : Bool) (l : List RowPiece) : Option PartEnd :=
  l.findSome? fun p => match p.res with
    | .stall w => some (.stall w)
    | .fault e =>
      if (p.far.isNone && !away) || e = cADDR_RANGE || e = cALIGN then some (.fault e (wd p.va)) else none
    | .ok _ => none

/-- A row lies on another die, in part at least. -/
def rowAway (l : List RowPiece) : Bool := l.any fun p => p.far.isSome

/-- Where an element of a row lies, by its offset: its address, or the die and cause that refuse it. -/
inductive ElemSpot where
  | at_ (addr : Nat) (far : Option DieKey)
  | refused (die : DieKey) (cause : BitVec 8)
  deriving DecidableEq, Repr

def spotOf (l : List RowPiece) (own : DieKey) (va : Nat) : ElemSpot :=
  match l.find? fun p => p.va ≤ va && va < p.va + p.bytes with
  | none => .refused own cADDR_RANGE
  | some p => match p.res with
    | .ok t => .at_ (t.addr + (va - p.va)) p.far
    | .fault e => .refused (p.far.getD own) e
    | .stall _ => .refused own cADDR_RANGE

/-- An error of one element is posted (R242); the row's accesses to other dies end within the step (log 10). -/
def State.postElem (s : State) (u : Nat) (va : Nat) (die : DieKey) (cause : BitVec 8) : State :=
  s.enqueueError u ⟨wordOf (wd va), peerOf die, cause⟩

/-! ### SCAT, SCATA -/

/-- The descriptor of SCAT and SCATA, and the operands (R414). -/
structure Scatter where
  base : Word
  list : Word
  nidx : Nat
  ntab : Nat
  pitch : Nat
  width : Nat
  rb : Nat
  deriving DecidableEq, Repr

/-- The columns of a row, `w` bits each, that lie in part in a piece which is refused, with that piece. -/
def refusedCols (l : List RowPiece) (va w cols : Nat) : List (Nat × RowPiece) :=
  (List.range cols).filterMap fun j =>
    (l.find? fun p => (match p.res with
      | .fault _ => true
      | _ => false) && va + j * w / 8 < p.va + p.bytes && p.va ≤ va + (j * w + w - 1) / 8).map fun p => (j, p)

/-- One entry of SCAT: the row's bits, piece by piece. An element that is refused is unchanged, and posts one entry. -/
def scatRow (u : Nat) (c : Client) (k : Scatter) (t : Tile) (img : BitVec 32768) (s : State) (e : Nat) (row : Option Nat) :
    State × PartEnd :=
  let va := (k.base.toNat + k.pitch * row.getD 0) % 2 ^ 64
  let out := s.rowPieces c (cut (wd va) k.rb)
  match rowStop false out.2 with
  | some r => (out.1, r)
  | none =>
    let bits := (img.extractLsb' (e * t.cols * k.width) (k.rb * 8)).toNat
    let lost := refusedCols out.2 va k.width t.cols
    let mask := lost.foldl (fun n x => n + (2 ^ k.width - 1) * 2 ^ (x.1 * k.width)) 0
    let done := out.2.foldl (fun (acc : State) p => match p.res with
      | .ok d =>
        let sh := 2 ^ (8 * (p.va - va))
        let old := acc.rd d.addr p.bytes
        let new := bits / sh % 2 ^ (8 * p.bytes)
        acc.engineWrite d.addr p.bytes (new ^^^ ((new ^^^ old) &&& (mask / sh)))
      | _ => acc) out.1
    (lost.foldl (fun (acc : State) x => match x.2.res with
      | .fault cause => acc.postElem u (max (va + x.1 * k.width / 8) x.2.va) (x.2.far.getD c.die) cause
      | _ => acc) done, .done)

/-- One combination of SCATA (R415): the new element with its record; none for a stale stamp. -/
def scataElem (kind : BitVec 2) (v : DecayView) (ieee : Bool) (fmt old src : Nat) : Option Rounded :=
  match kind.toNat with
  | 0 => some (fFP32.rnd .rne ieee 0 (Val.add false (dec32 old) (decElem fmt src)))
  | 1 => if v.stale old then none else some (v.merge ieee old src)
  | _ => some ⟨(old + src) % 2 ^ 32, false, false⟩

/-- One entry of SCATA (R416 to R419). -/
def scataRow (u : Nat) (c : Client) (k : Scatter) (kind : BitVec 2) (v : DecayView) (ieee : Bool) (t : Tile)
    (img : BitVec 32768) (s : State) (e : Nat) (row : Option Nat) : State × PartEnd :=
  let va := (k.base.toNat + k.pitch * row.getD 0) % 2 ^ 64
  let n := k.width / 8
  let out := s.rowPieces c (cut (wd va) k.rb)
  let old := fun (x : State) (a : Nat) => x.rd a n
  let stale := (List.range t.cols).find? fun j => match spotOf out.2 c.die (va + n * j) with
    | .at_ a none => kind = 1 && v.stale (old out.1 a)
    | _ => false
  match rowStop false out.2, stale with
  | some r, _ => (out.1, r)
  | none, some j => (out.1, .fault cSTALE_STAMP (wd (va + n * j)))
  | none, none =>
    ((List.range t.cols).foldl (fun (acc : State) j =>
      match spotOf out.2 c.die (va + n * j) with
      | .refused die cause => acc.postElem u (va + n * j) die cause
      | .at_ a far =>
        match scataElem kind v ieee t.fmt (old acc a) (elemBits img (cfgWidth t.fmt) (e * t.cols + j)) with
        | none => acc.postElem u (va + n * j) (far.getD c.die) cSTALE_STAMP
        | some r => (acc.engineWrite a n r.bits).upd u fun x => x.status t.slot (b2n r.ovf) false r.iovf) out.1, .done)

/-- The issue checks of R416 and the walk; `fmts` are the formats of the word, `width` the table element's. -/
def onScatter (s : State) (p q r : Field) (l : BitVec 2) (fmts : List Nat) (plain : Bool) (width : Option Nat)
    (f : Nat → Strand → Client → Scatter → Tile → BitVec 32768 → State → Nat → Option Nat → State × PartEnd) :
    Host.Outcome State Fault Refusal :=
  onWord s .s false false fun u m =>
    let (base, list, d) := (m.reg p, m.reg q, m.reg r)
    let nidx := fld d 12 6
    let ntab := fld d 47 16
    let pitch := 16 * fld d 63 48
    if nidx = 0 || nidx > 64 || ntab = 0 || pitch = 0 || fld d 15 13 ≠ 0 then s.raise u .s cILLEGAL 0 0
    else match m.typedTile .s (d.extractLsb' 0 6), s.clientOf m with
      | none, _ => s.raise u .s cTILE_CONFIG (wd (fld d 5 0)) 0
      | _, none => s
      | some t, some c =>
        let w := width.getD (cfgWidth t.fmt)
        let bits := t.cols * w
        if !(plain || (fmts.contains t.fmt && !t.scaled)) || bits % 128 ≠ 0 then
          s.raise u .s cTILE_CONFIG (wd (fld d 5 0)) 0
        else if nidx > t.rows || pitch < bits / 8 then s.raise u .s cILLEGAL 0 0
        else if base.toNat % 16 ≠ 0 then s.raise u .s cALIGN base 0
        else if list.toNat % 4 ≠ 0 then s.raise u .s cALIGN list 0
        else
          let k : Scatter := ⟨base, list, nidx, ntab, pitch, w, bits / 8⟩
          let e := m.walkStart .s
          State.endWalk u .s m.s.pos (indexLoop c list ntab l (f u m c k t (s.image t)) (nidx - e) e s)

/-- SCAT (R414 to R419). FPROG of an issue check that fails is 0 (log 118). -/
def execScat (p q r : Field) (_x : Bool) (l : BitVec 2) (s : State) : Host.Outcome State Fault Refusal :=
  onScatter s p q r l [] true none fun u _ c k t img => scatRow u c k t img

/-- SCATA (R414 to R419). FPROG of an issue check that fails is 0 (log 118). -/
def execScata (p q r : Field) (_x : Bool) (k l : BitVec 2) (s : State) : Host.Outcome State Fault Refusal :=
  onScatter s p q r l (if k = 0 then [0x0, 0x1] else if k = 1 then [0x0] else [0xC]) false
    (some (if k = 1 then 64 else 32)) fun u m c d t img => scataRow u c d k (s.decayOf m) m.ieee t img

/-! ### UPD -/

/-- The operands of UPD (R452). -/
structure Update where
  base : Word
  mbase : Word
  form : BitVec 2
  bf16 : Bool
  rsto : Bool
  ntab : Nat
  pitch : Nat
  eta : Val
  coef : Val
  ieee : Bool
  deriving DecidableEq, Repr

/-- The moment after an element's update, and the value that the parameter step uses (R453). -/
def Update.moment (k : Update) (v : DecayView) (m : Nat) (gr : Val) : Rounded × Val :=
  match k.form.toNat with
  | 0 => (⟨0, false, false⟩, gr)
  | 1 =>
    let r := fFP32.rnd .rne k.ieee 0 (Val.add false (k.coef.mul (dec32 m)) gr)
    (r, dec32 r.bits)
  | _ =>
    let a := fFP32.rnd .rne k.ieee 0 (k.coef.mul gr)
    let r := v.merge k.ieee m a.bits
    (⟨r.bits, r.ovf, r.iovf || a.iovf⟩, dec32 (r.bits % 2 ^ 32))

/-- The count that scaling the gradient adds under DK (R453, rounding 1). -/
def Update.scaleOvf (k : Update) (gr : Val) : Nat :=
  if k.form.toNat = 2 then b2n (fFP32.rnd .rne k.ieee 0 (k.coef.mul gr)).ovf else 0

/-- The format of parameters. -/
def Update.fmt (k : Update) : Fmt := if k.bf16 then fBF16 else fFP32
def Update.pw (k : Update) : Nat := if k.bf16 then 2 else 4
def Update.mw (k : Update) : Nat := match k.form.toNat with
  | 0 => 0
  | 1 => 4
  | _ => 8

/-- One element whose parameter and moment lie at `pa` and `ma` (R453). -/
def State.updElem (s : State) (u : Nat) (k : Update) (v : DecayView) (t : Tile) (img : BitVec 32768) (i pa ma : Nat) : State :=
  match s.strand u with
  | none => s
  | some m =>
    let w := cfgWidth t.fmt
    let lane := laneOf w i
    let gr := decElem t.fmt (elemBits img w i)
    let p := k.fmt.decFloat (s.rd pa k.pw)
    let (mo, step) := k.moment v (s.rd ma k.mw) gr
    let r := k.fmt.rnd (if k.rsto then .rsto else .rne) k.ieee (lfsrOf m.lanes lane) (Val.add false p (k.eta.mul step).flip)
    let s1 := if k.mw = 0 then s else s.engineWrite ma k.mw mo.bits
    (s1.engineWrite pa k.pw r.bits).upd u fun x =>
      { x with lanes := if k.rsto then stepLane x.lanes lane else x.lanes }.status t.slot
        (b2n r.ovf + b2n mo.ovf + k.scaleOvf gr) false (r.iovf || mo.iovf)

/-- One entry of UPD (R453, R454). With a table on another die the elements are carried out one by one, and a failure posts
one entry, whichever of the element's two words it meets; that of a stale stamp names the moment's die if it is another, or else the
parameter's (log 104). -/
def updRow (u : Nat) (c : Client) (k : Update) (v : DecayView) (t : Tile) (img : BitVec 32768) (s : State) (e : Nat)
    (row : Option Nat) : State × PartEnd :=
  let x := row.getD 0
  let pv := (k.base.toNat + k.pitch * x) % 2 ^ 64
  let mv := (k.mbase.toNat + x * (k.mw * t.cols)) % 2 ^ 64
  let po := s.rowPieces c (cut (wd pv) (k.pw * t.cols))
  let mo := po.1.rowPieces c (if k.mw = 0 then [] else cut (wd mv) (k.mw * t.cols))
  let mspot := fun (j : Nat) => if k.mw = 0 then ElemSpot.at_ 0 none else spotOf mo.2 c.die (mv + k.mw * j)
  let away := rowAway po.2 || rowAway mo.2
  let stale := (List.range t.cols).find? fun j => match spotOf po.2 c.die (pv + k.pw * j), mspot j with
    | .at_ _ none, .at_ a none => !away && k.mw = 8 && v.stale (mo.1.rd a 8)
    | _, _ => false
  match rowStop away po.2, rowStop away mo.2, stale with
  | some r, _, _ => (mo.1, r)
  | none, some r, _ => (mo.1, r)
  | none, none, some j => (mo.1, .fault cSTALE_STAMP (wd (mv + k.mw * j)))
  | none, none, none =>
    ((List.range t.cols).foldl (fun (acc : State) j =>
      match spotOf po.2 c.die (pv + k.pw * j), mspot j with
      | .refused die cause, _ => acc.postElem u (pv + k.pw * j) die cause
      | .at_ _ _, .refused die cause => acc.postElem u (mv + k.mw * j) die cause
      | .at_ pa pf, .at_ ma mf =>
        if k.mw = 8 && v.stale (acc.rd ma 8) then
          acc.postElem u (mv + k.mw * j) (mf.getD (pf.getD c.die)) cSTALE_STAMP
        else acc.updElem u k v t img (e * t.cols + j) pa ma) mo.1, .done)

/-- UPD (R452 to R454). FPROG of an issue check that fails is 0 (log 118). -/
def execUpd (p q r : Field) (_x : Bool) (f l : BitVec 2) (s : State) : Host.Outcome State Fault Refusal :=
  onWord s .s false false fun u m =>
    let (base, list, d, mbase, h) := (m.reg p, m.reg q, m.reg r, m.reg (r + 1), m.reg (r + 2))
    let nidx := fld d 12 6
    let k : Update := ⟨base, mbase, f, bit d 13, bit d 14, fld d 47 16, 16 * fld d 63 48, dec32 (fld h 31 0), dec32 (fld h 63 32), m.ieee⟩
    if nidx = 0 || nidx > 64 || k.ntab = 0 || k.pitch = 0 || bit d 15 || (f = 0 && (mbase ≠ 0 || fld h 63 32 ≠ 0)) then
      s.raise u .s cILLEGAL 0 0
    else match m.typedTile .s (d.extractLsb' 0 6), s.clientOf m with
      | none, _ => s.raise u .s cTILE_CONFIG (wd (fld d 5 0)) 0
      | _, none => s
      | some t, some c =>
        let prb := t.cols * k.pw
        if !(t.ok [0x0, 0x1]) || nidx > t.rows || prb % 16 ≠ 0 || prb > k.pitch || t.cols * k.mw % 16 ≠ 0 then
          s.raise u .s cTILE_CONFIG (wd (fld d 5 0)) 0
        else if base.toNat % 16 ≠ 0 then s.raise u .s cALIGN base 0
        else if f ≠ 0 && mbase.toNat % 16 ≠ 0 then s.raise u .s cALIGN mbase 0
        else if list.toNat % 4 ≠ 0 then s.raise u .s cALIGN list 0
        else
          let e := m.walkStart .s
          State.endWalk u .s m.s.pos (indexLoop c list k.ntab l (updRow u c k (s.decayOf m) t (s.image t)) (nidx - e) e s)

end Sys2Proof.Machine
end

