-- ==== Sys2Proof/Machine/Hazard.lean ====
section
/-! DEFINITION. The interlock of registers (R47, R73, R74): what a word reads and writes, and when it waits for an earlier
word of a slower stream or for a running AST. -/

namespace Sys2Proof.Machine

/-! ### Footprints -/

/-- What a word reads (`…R`) and writes (`…W`), one bit each: general registers, tile slots with their configurations, tile
status words, accumulator banks with their ownership, banks whose contents it changes, and the single registers below. -/
structure Foot where
  gR : BitVec 64 := 0
  gW : BitVec 64 := 0
  tR : BitVec 64 := 0
  tW : BitVec 64 := 0
  sR : BitVec 64 := 0
  sW : BitVec 64 := 0
  aR : BitVec 64 := 0
  aW : BitVec 64 := 0
  aC : BitVec 64 := 0
  mR : BitVec 8 := 0
  mW : BitVec 8 := 0
  deriving DecidableEq, Repr

/-- The single registers: mask stack, lane LFSRs, RMODE, die map, lease, codebook table, rotation, branch outcomes. -/
def fMask : BitVec 8 := 0x01
def fLanes : BitVec 8 := 0x02
def fRmode : BitVec 8 := 0x04
def fDmap : BitVec 8 := 0x08
def fLease : BitVec 8 := 0x10
def fBook : BitVec 8 := 0x20
def fRot : BitVec 8 := 0x40
def fBoq : BitVec 8 := 0x80

/-- Two words must keep their order (R47). -/
def Foot.clash (e l : Foot) : Bool :=
  (e.gW &&& (l.gR ||| l.gW)) ≠ 0 || (e.gR &&& l.gW) ≠ 0 ||
  (e.tW &&& (l.tR ||| l.tW)) ≠ 0 || (e.tR &&& l.tW) ≠ 0 ||
  (e.sW &&& (l.sR ||| l.sW)) ≠ 0 || (e.sR &&& l.sW) ≠ 0 ||
  (e.aW &&& (l.aR ||| l.aW)) ≠ 0 || (e.aR &&& l.aW) ≠ 0 ||
  (e.mW &&& (l.mR ||| l.mW)) ≠ 0 || (e.mR &&& l.mW) ≠ 0

/-- What a footprint depends on: the strand, the rotation at the word, the register of the LI before it, and whether the
registers that the word reads have their values already. -/
structure FootView where
  m : Strand
  rot : Field
  prev : Option Field
  sure : Bool

/-- General registers as bits; `g0` is none. -/
def gBit (f : Field) : BitVec 64 := if f = 0 then 0 else BitVec.ofNat 64 (2 ^ f.toNat)
def gBits (l : List Field) : BitVec 64 := l.foldl (fun v f => v ||| gBit f) 0

/-- Tile names as bits of slots. -/
def FootView.t (v : FootView) (l : List Field) : BitVec 64 :=
  l.foldl (fun w f => w ||| match v.m.slot v.rot f with
    | some k => BitVec.ofNat 64 (2 ^ k)
    | none => 0) 0

/-- Banks `a` to `a + n - 1`. -/
def bankBits (a n : Nat) : BitVec 64 := BitVec.ofNat 64 ((2 ^ n - 1) * 2 ^ a)

/-- Rows of a tile, as far as they are known. -/
def FootView.rows (v : FootView) (f : Field) : Nat := match v.m.slot v.rot f with
  | some k => if v.sure then cfgRows (vget v.m.tcfg 0 k) else 64
  | none => 0

/-- Whether one of the tiles has codebook elements. -/
def FootView.book (v : FootView) (l : List Field) : BitVec 8 :=
  if l.any fun f => match v.m.slot v.rot f with
    | some k => !v.sure || cfgFmt (vget v.m.tcfg 0 k) = 0xB
    | none => false
  then fBook else 0

/-! ### Groups of words -/

/-- A word of the C stream on general registers. -/
def footG (d : Field) (l : List Field) : Foot := { gR := gBits l, gW := gBit d }

/-- A word that reads general registers. -/
def footR (l : List Field) : Foot := { gR := gBits l }

/-- As `footR`, for a word that reaches memory through the die map. -/
def footMem (l : List Field) : Foot := { gR := gBits l, mR := fDmap }

/-- A rounding mode: RMODE for code 7, and the LFSRs for RSTO. -/
def FootView.round (v : FootView) (code : BitVec 3) : BitVec 8 :=
  fRmode ||| (if code = 4 || (code = 7 && v.m.rnd = 4) then fLanes else 0)

/-- A vector word on tiles. -/
def FootView.vec (v : FootView) (d : List Field) (l : List Field) (m : BitVec 8) : Foot :=
  { tR := v.t (d ++ l), tW := v.t d, sW := v.t d, mR := fMask ||| fRot ||| m, mW := m &&& fLanes }

/-- A CSR word; `writes` says that it writes. -/
def FootView.csr (v : FootView) (d : Field) (l : List Field) (c : BitVec 12) (writes : Bool) : Foot :=
  let n := c.toNat
  let base := footG d l
  let w := fun (x : BitVec 8) => if writes then x else 0
  if n = 0x012 then { base with mW := w fRot }
  else if n = 0x013 then { base with mR := fBoq }
  else if n = 0x014 || n = 0x016 then { base with mR := fMask }
  else if n = 0x017 then { base with mR := fLease }
  else if n = 0x01C || n = 0x01D then { base with aR := BitVec.allOnes 64 }
  else if 0x100 ≤ n && n < 0x140 then
    let k := v.t [BitVec.ofNat 6 n]
    { base with tR := k, tW := if writes then k else 0, mR := fRot }
  else if 0x140 ≤ n && n < 0x180 then
    let k := v.t [BitVec.ofNat 6 n]
    { base with sR := k, sW := if writes then k else 0, mR := fRot }
  else if n = 0x202 then { base with mW := w fRmode }
  else if n = 0x205 then { base with mR := fLanes, mW := w fLanes }
  else if 0x480 ≤ n && n < 0x4A0 then { base with mW := w fDmap }
  else base

/-- A matrix command on banks from `a` for some rows. -/
def FootView.matrix (v : FootView) (a rows : Nat) (g : List Field) (l : List Field) : Foot :=
  let k := bankBits a (ceilDiv rows 16)
  { gR := gBits g, tR := v.t l, sW := v.t l, aR := k, aW := k, aC := k, mR := fRot ||| fLease ||| v.book l, mW := fLease }

/-- The tiles of MMAG: A, and B of every group. -/
def mmagTiles (w : Word) : List Field :=
  w.extractLsb' 6 6 :: (List.range (fld w 21 18 + 1)).map fun g => BitVec.ofNat 6 (fld w 17 12 + g)

/-- All slots of the window. -/
def allSlots : BitVec 64 := BitVec.allOnes 64

/-- MMAG, whose tiles and banks its registers name. -/
def FootView.mmag (v : FootView) (p q r : Field) : Foot :=
  if v.sure then
    let w := v.m.reg p
    v.matrix (fld w 5 0) (v.rows (w.extractLsb' 6 6)) [p, q, r] (mmagTiles w)
  else { gR := gBits [p, q, r], tR := allSlots, sW := allSlots, aR := allSlots, aW := allSlots, aC := allSlots
         mR := fRot ||| fLease ||| fBook, mW := fLease }

/-- Banks and rounding of a drain (R334). -/
def FootView.drain (v : FootView) (p q : Field) : Foot :=
  let w := v.m.reg q
  let rnd := if v.sure then v.round (BitVec.ofNat 3 (fld w 26 24)) else fRmode ||| fLanes
  { gR := gBits [p, q], aR := if v.sure then bankBits (fld w 5 0) (ceilDiv (fld w 12 6) 16) else allSlots
    mR := fDmap ||| rnd, mW := rnd &&& fLanes }

/-- A scatter word: its descriptor in `r` names the tile. -/
def FootView.scatter (v : FootView) (g : List Field) (r : Field) (status : Bool) (m : BitVec 8) : Foot :=
  let k := if v.sure then v.t [(v.m.reg r).extractLsb' 0 6] else allSlots
  { gR := gBits (r :: g), tR := k, sW := if status then k else 0, mR := fDmap ||| fRot ||| m, mW := m &&& fLanes }

/-- The LFSRs, if a UPD rounds its parameters stochastically. -/
def FootView.updRound (v : FootView) (r : Field) : BitVec 8 := if !v.sure || bit (v.m.reg r) 14 then fLanes else 0

/-! ### The footprint of a word -/

/-- The footprint of a word; rows that are no words have none. -/
def FootView.foot (v : FootView) : Instr → Foot
  | .add d a b => footG d [a, b]
  | .sub d a b => footG d [a, b]
  | .mul d a b => footG d [a, b]
  | .mulh d a b => footG d [a, b]
  | .mulhu d a b => footG d [a, b]
  | .div d a b => footG d [a, b]
  | .divu d a b => footG d [a, b]
  | .rem d a b => footG d [a, b]
  | .remu d a b => footG d [a, b]
  | .and d a b => footG d [a, b]
  | .or d a b => footG d [a, b]
  | .xor d a b => footG d [a, b]
  | .shl d a b => footG d [a, b]
  | .shr d a b => footG d [a, b]
  | .sra d a b => footG d [a, b]
  | .slt d a b => footG d [a, b]
  | .sltu d a b => footG d [a, b]
  | .min d a b => footG d [a, b]
  | .max d a b => footG d [a, b]
  | .minu d a b => footG d [a, b]
  | .maxu d a b => footG d [a, b]
  | .sel d a b => footG d [d, a, b]
  | .clz d a => footG d [a]
  | .popc d a => footG d [a]
  | .shli d a _ => footG d [a]
  | .shri d a _ => footG d [a]
  | .srai d a _ => footG d [a]
  | .addi d a _ => footG d [a]
  | .andi d a _ => footG d [a]
  | .ori d a _ => footG d [a]
  | .xori d a _ => footG d [a]
  | .slti d a _ => footG d [a]
  | .bfx d a _ _ => footG d [a]
  | .bfi d a _ _ => footG d [d, a]
  | .li d _ => footG d []
  | .lih _ => match v.prev with
    | some d => footG d [d]
    | none => {}
  | .call _ => footG 63 []
  | .jr a => footR [a]
  | .loop a _ => footG a [a]
  | .beq a b _ => footR [a, b]
  | .bne a b _ => footR [a, b]
  | .blt a b _ => footR [a, b]
  | .bge a b _ => footR [a, b]
  | .bltu a b _ => footR [a, b]
  | .bgeu a b _ => footR [a, b]
  | .csrR d c => v.csr d [] c false
  | .csrW d a c => v.csr d [a] c true
  | .csrS d a c => v.csr d [a] c (a ≠ 0)
  | .csrC d a c => v.csr d [a] c (a ≠ 0)
  | .tcfg n a => { gR := gBit a, tW := v.t [n], mR := fRot }
  | .rng d a b => footG d [a, b]
  | .rngRs d a b => footG d [a, b]
  | .enq d q _ => footG d [q]
  | .lds d a _ _ => footG d [a]
  | .sts d a _ _ => footR [d, a]
  | .ldg d a _ _ => footG d [a]
  | .stg d a _ _ => footR [d, a]
  | .ldgAcq d a _ => footG d [a]
  | .stgRel d a _ => footR [d, a]
  | .ldfK d a _ _ => footG d [a]
  | .ldfC d a _ _ => footG d [a]
  | .waitfK p q => footR [p, q]
  | .waitfC p q => footR [p, q]
  | .amo d a b _ _ _ => footG d [a, b]
  | .cas d a b _ => footG d [d, a, b]
  | .acq p => footR [p]
  | .acqSh p => footR [p]
  | .rel p => footR [p]
  | .bind p q r _ => footR [p, q, r]
  | .lend d q => footG d [q]
  | .reclaim d q => footG d [q]
  | .tlbi p => footR [p]
  | .tlbiSp p => footR [p]
  | .pgsplit d a => footG d [a]
  | .pgcoll d a b => footG d [a, b]
  | .pgmig d a b => footG d [a, b]
  | .arinit _ p q _ => footR [p, q]
  | .arwait _ p _ _ => footR [p]
  | .fset _ p q _ => footR [p, q]
  | .fclr _ p q _ => footR [p, q]
  | .tld n b _ => { footMem [b] with tW := v.t [n], mR := fDmap ||| fRot }
  | .tldt n b _ => { footMem [b] with tW := v.t [n], mR := fDmap ||| fRot }
  | .tldk n b _ => { footR [b] with tW := v.t [n], mR := fRot }
  | .cbld b _ => { footMem [b] with mW := fBook }
  | .gather p q r _ _ => footMem [p, q, r, r + 1]
  | .gred p q r _ _ _ _ => { footMem [p, q, r, r + 1] with mR := fDmap ||| fRmode }
  | .cpy _ p q r _ => footMem [p, q, r]
  | .cpyt _ p q r _ => footMem [p, q, r, r + 1]
  | .tmov _ p q _ => footR [p, q]
  | .vadd d a b r => v.vec [d] [a, b] (v.round r)
  | .vsub d a b r => v.vec [d] [a, b] (v.round r)
  | .vmul d a b r => v.vec [d] [a, b] (v.round r)
  | .vfma d a b r => v.vec [d] [a, b] (v.round r)
  | .vfms d a b r => v.vec [d] [a, b] (v.round r)
  | .vfnma d a b r => v.vec [d] [a, b] (v.round r)
  | .vmin d a b _ _ => v.vec [d] [a, b] 0
  | .vmax d a b _ _ => v.vec [d] [a, b] 0
  | .vabs d a => v.vec [d] [a] 0
  | .vneg d a => v.vec [d] [a] 0
  | .vcmp d a b _ _ => v.vec [d] [a, b] 0
  | .vsel d a b => v.vec [d] [a, b] 0
  | .vcvt d a r =>
    let f := v.vec [d] [a] (v.round r)
    { f with sW := v.t [d, a], mR := f.mR ||| v.book [a] }
  | .viadd d a b _ => v.vec [d] [a, b] 0
  | .visub d a b _ => v.vec [d] [a, b] 0
  | .vimul d a b _ => v.vec [d] [a, b] 0
  | .vand d a b => v.vec [d] [a, b] 0
  | .vor d a b => v.vec [d] [a, b] 0
  | .vxor d a b => v.vec [d] [a, b] 0
  | .vnot d a => v.vec [d] [a] 0
  | .vshl d a b i => v.vec [d] (if i then [a] else [a, b]) 0
  | .vshr d a b i => v.vec [d] (if i then [a] else [a, b]) 0
  | .vsra d a b i => v.vec [d] (if i then [a] else [a, b]) 0
  | .vmov d a => v.vec [d] [a] 0
  | .vmovG d a => { v.vec [d] [] 0 with gR := gBit a }
  | .vbcr d a _ => v.vec [d] [a] 0
  | .vbcc d a _ => v.vec [d] [a] 0
  | .vrotr d a _ => v.vec [d] [a] 0
  | .vrotc d a _ => v.vec [d] [a] 0
  | .vredr d a _ _ => v.vec [d] [a] fRmode
  | .vredc d a _ _ => v.vec [d] [a] fRmode
  | .vscanr d a _ _ _ => v.vec [d] [a] fRmode
  | .vscanc d a _ _ _ => v.vec [d] [a] fRmode
  | .viota d a => { v.vec [d] [] 0 with gR := gBit a }
  | .vrng d a b _ f => { v.vec [d] [a] 0 with gR := gBits (if f = 0 then [b] else [b, b + 1]) }
  | .vcor d a _ f => v.vec (if f = 0 then [d, d + 1] else [d]) (if f = 1 || f = 7 then [a, a + 1] else [a]) fRmode
  | .vdkadd d a b => v.vec [d] [a, b] fRmode
  | .vdkapp d a => v.vec [d] [a] 0
  | .mpush a => { tR := v.t [a], mR := fMask ||| fRot, mW := fMask }
  | .mpushNew a => { tR := v.t [a], mR := fMask ||| fRot, mW := fMask }
  | .minv => { mR := fMask, mW := fMask }
  | .mpop => { mR := fMask, mW := fMask }
  | .bmz _ => { mR := fMask, mW := fBoq }
  | .mlease => { mW := fLease }
  | .mrel => { mW := fLease }
  | .mma d a b => v.matrix d.toNat (v.rows a) [] [a, b]
  | .mmag p q r => v.mmag p q r
  | .aalloc d a => { aW := bankBits d.toNat (a.toNat + 1) }
  | .afree d a => { aW := bankBits d.toNat (a.toNat + 1) }
  | .azero d a =>
    let k := bankBits d.toNat (a.toNat + 1)
    { aR := k, aW := k, aC := k }
  | .aadd d a => v.matrix d.toNat (v.rows a) [] [a]
  | .adrain p q => v.drain p q
  | .tunpk d a r =>
    { tR := v.t [d], tW := v.t [d], sW := v.t [d], aR := bankBits a.toNat (ceilDiv (v.rows d) 16)
      mR := fRot ||| v.round r, mW := v.round r &&& fLanes }
  | .tst n b _ => { footMem [b] with tR := v.t [n], mR := fDmap ||| fRot }
  | .tstk n b _ => { footR [b] with tR := v.t [n], mR := fRot }
  | .ast p q _ => v.drain p q
  | .scat p q r _ _ => v.scatter [p, q] r false 0
  | .scata p q r _ _ _ => v.scatter [p, q] r true fRmode
  | .upd p q r _ _ _ => v.scatter [p, q, r + 1, r + 2] r true (fRmode ||| v.updRound r)
  | .car p q r _ => footMem [p, q, r, r + 1]
  | .crs p q r _ => footMem [p, q, r, r + 1]
  | .cag p q r _ => footMem [p, q, r, r + 1]
  | .cbc p q r _ => footMem [p, q, r, r + 1]
  | _ => {}

/-! ### Waiting -/

/-- The register of the LI that is the word before a position (R302). -/
def Strand.liBefore (m : Strand) (pos : Nat) : Option Field :=
  match m.walk.find? fun w => w.pos + 1 = pos with
  | none => none
  | some w => match decode w.bits with
    | some (.li d _) => some d
    | _ => none

/-- The footprint of a word of the walk. -/
def Strand.footAt (m : Strand) (w : WalkWord) (sure : Bool) : Foot :=
  match decode w.bits with
  | none => {}
  | some i => FootView.foot ⟨m, w.rot, m.liBefore w.pos, sure⟩ i

/-- Words before a position that their own stream has still to execute. -/
def Strand.pending (m : Strand) (pos : Nat) : List WalkWord :=
  m.walk.filter fun w => w.pos < pos && !w.done && (m.stream (tagOf w.bits)).pos ≤ w.pos

/-- A word's operands may still come from one of the words before it. -/
def Foot.feeds (e l : Foot) : Bool := (e.gW &&& l.gR) ≠ 0 || (e.tW &&& l.tR) ≠ 0 || (e.mW &&& l.mR) ≠ 0

/-- The registers that a pending word reads have their values. -/
def Strand.sureOf (m : Strand) (w : WalkWord) : Bool :=
  !((m.pending w.pos).any fun x => (m.footAt x false).feeds (m.footAt w false))

/-- What a running AST still reads and steps (R53, R153, R346). -/
def Ast.foot (a : Ast) : Foot :=
  { aR := bankBits (fld a.desc 5 0) (ceilDiv (fld a.desc 12 6) 16)
    mR := if a.rnd = 4 then fLanes else 0, mW := if a.rnd = 4 then fLanes else 0 }

/-- A word of the S stream that reads or writes memory itself, so that it follows an earlier AST of its stream (R201). -/
def sMemory : Instr → Bool
  | .tst .. => true
  | .tstk .. => true
  | .ast .. => true
  | .scat .. => true
  | .scata .. => true
  | .upd .. => true
  | .tmov .. => true
  | .arinit .. => true
  | .arwait .. => true
  | _ => false

/-- The pending AST words before a position (R153), by position, with the descriptor registers that they read. -/
def Strand.waitingAsts (m : Strand) (pos : Nat) : List (WalkWord × Field) :=
  (m.pending pos).filterMap fun w => match decode w.bits with
    | some (.ast _ q _) => some (w, q)
    | _ => none

/-- An AFREE does not wait for an AST before it that has its operands: the banks that the AST has still to read drain (R153,
R337, R493). -/
def Strand.freesUnder (m : Strand) (i : Instr) (w : WalkWord) : Bool :=
  match i, decode w.bits with
  | .afree _ _, some (.ast ..) => m.sureOf w
  | _, _ => false

/-- A word waits for an earlier word of a slower stream (R47), or for a running AST. -/
def Strand.hazard (m : Strand) (t : Stream) (i : Instr) : Bool :=
  let pos := (m.stream t).pos
  let l := FootView.foot ⟨m, m.rotAt t, m.liBefore pos, true⟩ i
  let asts := m.asts.filter fun a => !a.stopped && a.pos < pos
  (m.pending pos).any (fun w => !m.freesUnder i w && (m.footAt w (m.sureOf w)).clash l) ||
  asts.any (fun a => Foot.clash a.foot { l with aW := l.aC }) ||
  (t = .s && sMemory i && !asts.isEmpty)

end Sys2Proof.Machine
end

