-- ==== Sys2Proof/Machine/Matrix.lean ====
section
/-! DEFINITION. The matrix array and the accumulator banks: leases (R56, R57, R397), bank words (R153, R330, R337, R347),
MMA, MMAG, AADD (R116, R328, R399, R401), TUNPK (R446), and the drains ADRAIN and AST (R334 to R336, R346, R247). -/

namespace Sys2Proof.Machine

/-! ### The lease -/

/-- Requests the matrix array, and the X stream waits for the grant (R57). -/
def State.askArray (s : State) (u : Nat) (m : Strand) : State :=
  match m.place with
  | none => s
  | some loc => ({ s with arrayReq := tabPut s.arrayReq loc u }).waitFor u .x .array

/-- The strand's hold on the array ends, and with it a HELD lease. -/
def State.lapse (s : State) (u : Nat) : State :=
  { s.upd u fun m => { m with lease := match m.lease with
      | .held _ _ => .lapsed
      | l => l } with array := s.array.filter fun e => e.2 ≠ u }

/-- MLEASE (R57): ends any lease and requests the array; it retires with the grant. The lease shown while it waits is NONE
(log 88). -/
def execMlease (s : State) : Host.Outcome State Fault Refusal :=
  onWord s .x false false fun u m =>
    (({ s with array := s.array.filter fun e => e.2 ≠ u }).upd u fun k => { k with lease := .none }).askArray u m

/-- MREL (R57). -/
def execMrel (s : State) : Host.Outcome State Fault Refusal :=
  onWord s .x false false fun u _ =>
    ({ s with array := s.array.filter fun e => e.2 ≠ u }).upd u fun k => { k with lease := .none }.retire .x

/-- The next requester of a core, round robin after the last holder (R57): bank and strand. A stream that would pass the slip bound
goes on waiting (R48). -/
def State.nextRequester (s : State) (core : Nat) : Option (Nat × Nat) :=
  let last := tabAt s.arrayLast 3 core
  (natRange (last + 1) 4).findSome? fun b =>
    match tabGet s.arrayReq (bankOf core (b % 4)) with
    | none => none
    | some u => match s.strand u with
      | none => none
      | some m => if m.x.wait = .array && m.canIssue && m.slipOk .x && m.place = some (bankOf core (b % 4)) then some (b % 4, u) else none

/-- MATRIX_ARRAY_GRANT (R57): a waiting MLEASE retires; a waiting matrix command goes on under the new lease. -/
def execMatrixArrayGrant (core : BitVec 18) (s : State) : Host.Outcome State Fault Refusal :=
  .next (if (tabGet s.array core.toNat).isSome then s else
    match s.nextRequester core.toNat with
    | none => s
    | some (b, u) =>
      let s1 : State := { s with
        array := tabPut s.array core.toNat u
        arrayLast := tabPut s.arrayLast core.toNat b
        arrayReq := tabDel s.arrayReq (bankOf core.toNat b) }
      s1.upd u fun m =>
        let m1 := { m.setWait .x .none with lease := .held 16 4096 }
        match (m.wordAt m.x.pos).bind fun w => decode w.bits with
        | some .mlease => m1.retire .x
        | _ => m1)

/-- LEASE_LAPSE (R57): a lease without commands or cycles left. -/
def execLeaseLapse (loc : Loc) (s : State) : Host.Outcome State Fault Refusal :=
  .next (match s.onBank loc.toNat with
    | none => s
    | some (u, m) => match m.lease with
      | .held k c => if k = 0 || c = 0 then s.lapse u else s
      | _ => s)

/-- The lease check of a matrix command (R56), and then the command, which uses one of the lease's commands. -/
def State.underLease (s : State) (u : Nat) (m : Strand) (f : State → State) : State :=
  match m.lease with
  | .none => s.raise u .x cLEASE 0 0
  | .lapsed => s.askArray u m
  | .held k c =>
    if k = 0 || c = 0 then (s.lapse u).askArray u m else f s

/-- A matrix command retires and has used one command of its lease. -/
def Strand.matrixDone (m : Strand) : Strand :=
  { m with lease := match m.lease with
    | .held k c => .held (k - 1) c
    | l => l }.retire .x

/-! ### Bank ranges -/

/-- Banks of `n` rows from bank `j`: past `ab63` raises ACC_UNALLOC with 64, or the first failing bank (R399). -/
def State.rowBanks (s : State) (u core j rows : Nat) : Option (BitVec 8 × Word) :=
  if j + ceilDiv rows 16 > 64 then some (cACC_UNALLOC, 64) else s.banksCheck u core j (ceilDiv rows 16)

/-- Banks that an AST reads (R334). -/
def astBanks (desc : Word) : List Nat := natRange (fld desc 5 0) (ceilDiv (fld desc 12 6) 16)

/-- Changes the running ASTs' records. -/
def Strand.mapAsts (m : Strand) (f : Ast → Ast) : Strand := { m with asts := m.asts.map f }

/-- A finished AST leaves the record. -/
def Strand.dropAst (m : Strand) (pos : Nat) : Strand := { m with asts := m.asts.filter fun x => x.pos ≠ pos }

/-- A fault that the strand's stop has yet to record. -/
def Strand.note (m : Strand) (n : Noted) : Strand := { m with noted := m.noted ++ [n] }

/-- An AST's mask of released banks, with banks put in or taken out. -/
def Ast.setFreed (x : Ast) (v : BitVec 64) : Ast := { x with freed := v }

/-- Banks as a mask. -/
def bankMask (banks : List Nat) : BitVec 64 := banks.foldl (fun f j => f ||| BitVec.ofNat 64 (2 ^ j)) 0

/-- AALLOC (R330): waits for a bank that drains under another strand, then takes the banks all at once. -/
def execAalloc (d a : Field) (s : State) : Host.Outcome State Fault Refusal :=
  onWord s .x false false fun u m =>
    match m.place with
    | none => s
    | some loc =>
      let core := locCore loc
      let banks := natRange d.toNat (a.toNat + 1)
      let owner := fun j => tabGet s.accOwner (unitKey core j)
      if banks.any (fun j => match owner j with
          | some o => o.uid ≠ u && o.draining
          | none => false) then s
      else match banks.find? (fun j => match owner j with
          | some o => o.uid ≠ u
          | none => false) with
        | some j => s.raise u .x cACC_NOT_OWNED (wd j) 0
        | none =>
          let s1 := banks.foldl (fun (acc : State) j =>
            let clean := if (owner j).isNone then acc.setBank core j 0 else acc
            { clean with accOwner := tabPut clean.accOwner (unitKey core j) ⟨u, false⟩ }) s
          s1.upd u fun k => (k.mapAsts fun x => x.setFreed (x.freed &&& ~~~(bankMask banks))).retire .x

/-- AFREE (R153, R337): a bank that an earlier AST still reads drains, whether that AST has issued or not (R493); any other is
free at once. -/
def execAfree (d a : Field) (s : State) : Host.Outcome State Fault Refusal :=
  onWord s .x false false fun u m =>
    match m.place with
    | none => s
    | some loc =>
      let core := locCore loc
      let banks := natRange d.toNat (a.toNat + 1)
      match s.banksCheck u core d.toNat (a.toNat + 1) with
      | some (e, j) => s.raise u .x e j 0
      | none =>
        let reads := fun (x : Ast) (j : Nat) => x.pos < m.x.pos && (astBanks x.desc).contains j
        let later : List (Nat × List Nat) := (m.waitingAsts m.x.pos).map fun e => (e.1.pos, banks.filter (astBanks (m.reg e.2)).contains)
        let s1 := banks.foldl (fun (acc : State) j =>
          if (m.asts.any fun x => reads x j) || later.any fun e => e.2.contains j then
            { acc with accOwner := tabPut acc.accOwner (unitKey core j) ⟨u, true⟩ }
          else { acc with accOwner := tabDel acc.accOwner (unitKey core j) }) s
        s1.upd u fun k => ({ k.mapAsts (fun x => x.setFreed (x.freed ||| bankMask (banks.filter (reads x)))) with
          early := later.foldl (fun (t : Tab (BitVec 64)) (e : Nat × List Nat) => tabSet t 0 e.1 (tabAt t 0 e.1 ||| bankMask e.2)) k.early }).retire .x

/-- AZERO (R347). -/
def execAzero (d a : Field) (s : State) : Host.Outcome State Fault Refusal :=
  onWord s .x false false fun u m =>
    match m.place with
    | none => s
    | some loc => match s.banksCheck u (locCore loc) d.toNat (a.toNat + 1) with
      | some (e, j) => s.raise u .x e j 0
      | none => ((natRange d.toNat (a.toNat + 1)).foldl (fun (acc : State) j => acc.setBank (locCore loc) j 0) s).done u .x

/-! ### MMA, MMAG, AADD -/

/-- Applies a function to the entries of rows `r0` to `r0 + rows - 1` and columns below `cols`, counted from bank `j`. -/
def State.mapRows (s : State) (core j r0 rows cols : Nat) (f : Nat → Nat → Nat → Nat) : State :=
  (List.range (ceilDiv (r0 + rows) 16)).foldl (fun (acc : State) p =>
    let old := s.bank core (j + p)
    acc.setBank core (j + p) (BitVec.ofNat 65536 (packNat 64 ((List.range 1024).map fun x =>
      let r := 16 * p + x / 64
      let c := x % 64
      let e := bankEntry old (x / 64) c
      if r0 ≤ r && r < r0 + rows && c < cols then f r c e else e)))) s

/-- The tile checks of R399 for one operand of MMA. -/
def Strand.mTile (m : Strand) (n : Field) : Except Field Tile :=
  match m.tile .x n with
  | none => .error n
  | some t =>
    if t.configured && t.fmt < 0xC && (!t.scaled || t.cols % (if t.fmt = 0xB then 64 else 32) = 0) then .ok t else .error n

/-- As `mTile`, with K equal to A's. -/
def Strand.mTileK (m : Strand) (a : Tile) (n : Field) : Except Field Tile :=
  match m.mTile n with
  | .error e => .error e
  | .ok t => if t.cols = a.cols then .ok t else .error n

/-- A tile with its scale bytes, read whole (R103). -/
structure Scaled where
  tile : Tile
  plane : Nat
  deriving DecidableEq, Repr

/-- Reads the scale planes of tiles, in order. The first byte beyond the region, of whatever tile, comes before every unbound
segment, so that a word that fails binds none (R103). -/
def State.planes (s : State) (c : Client) : List Tile → RangeRes ⊕ List Scaled
  | [] => .inr []
  | t :: r => match s.scaleBytes c t.cfg (t.blocks t.count fun _ => true), s.planes c r with
    | .inr n, .inr l => .inr (⟨t, n⟩ :: l)
    | .inl (.fault e a d), _ => .inl (.fault e a d)
    | _, .inl (.fault e a d) => .inl (.fault e a d)
    | .inl e, _ => .inl e
    | _, .inl e => .inl e

/-- The decoded elements of row `i` of a tile. -/
def State.rowVals (s : State) (core : Nat) (x : Scaled) (i : Nat) : List Val :=
  let img := s.image x.tile
  let book := tabAt s.books 0 core
  (List.range x.tile.cols).map fun k => x.tile.dec book img x.plane (i * x.tile.cols + k)

/-- A zero scale has been decoded for a tile: ZSS (R104). -/
def Strand.markZero (m : Strand) (x : Scaled) : Strand := m.status x.tile.slot 0 (x.tile.zeroScale x.plane x.tile.count) false

/-- Rows `r0` to `r0 + rows - 1` of A met with B, into banks from `j` (R116). -/
def State.multiply (s : State) (core j r0 rows : Nat) (a b : Scaled) : State :=
  let bRows := (List.range b.tile.rows).map (s.rowVals core b)
  let aRows := (List.range rows).map fun i => s.rowVals core a (r0 + i)
  s.mapRows core j r0 rows b.tile.rows fun r c e =>
    rndAx (matrixSum (fAX64.decFloat e)
      (((aRows.getD (r - r0) []).zip (bRows.getD c [])).map fun p => p.1.mul p.2))

/-- The part of a matrix command after its tile checks: scale planes, lease, banks, and then its effect. -/
def State.matrixCommand (s : State) (u : Nat) (m : Strand) (j rows : Nat) (tiles : List Tile)
    (f : State → Nat → List Scaled → State) : State :=
  match s.clientOf m, m.place with
  | some c, some loc => match s.planes c tiles with
    | .inl (.fault e a _) => s.raise u .x e a 0
    | .inl (.stall w) => s.waitFor u .x w
    | .inl (.ok _) => s
    | .inr l => s.underLease u m fun s1 =>
      match s1.rowBanks u (locCore loc) j rows with
      | some (e, k) => s1.raise u .x e k 0
      | none => (f s1 (locCore loc) l).upd u fun k => (l.foldl Strand.markZero k).matrixDone
  | _, _ => s

/-- MMA (R399). -/
def execMma (d a b : Field) (s : State) : Host.Outcome State Fault Refusal :=
  onVec s fun u m => do
    let ta ← m.mTile a
    let tb ← m.mTile b
    if ta.cols ≠ tb.cols then .error b
    .ok (s.matrixCommand u m d.toNat ta.rows [ta, tb] fun s1 core l =>
      match l with
      | [x, y] => s1.multiply core d.toNat 0 ta.rows x y
      | _ => s1)

/-- Count of rows of group `h` (R400). -/
def groupCount (q r : Word) (h : Nat) : Nat := if h < 8 then fld q (8 * h + 7) (8 * h) else fld r (8 * (h - 8) + 7) (8 * (h - 8))

/-- The non-empty groups of MMAG: group number, first row, rows. -/
def groupsOf (q r : Word) (g : Nat) : List (Nat × Nat × Nat) :=
  ((List.range g).foldl (fun (acc : List (Nat × Nat × Nat) × Nat) h =>
    let n := groupCount q r h
    (if n = 0 then acc.1 else acc.1 ++ [(h, acc.2, n)], acc.2 + n)) ([], 0)).1

/-- The B tiles of groups, checked in order. -/
def Strand.groupTiles (m : Strand) (a : Tile) (tb : Nat) : List (Nat × Nat × Nat) → Except Field (List Tile)
  | [] => .ok []
  | g :: r => match m.mTileK a (BitVec.ofNat 6 (tb + g.1)) with
    | .error e => .error e
    | .ok t => match m.groupTiles a tb r with
      | .error e => .error e
      | .ok l => .ok (t :: l)

/-- MMAG (R401). -/
def execMmag (p q r : Field) (s : State) : Host.Outcome State Fault Refusal :=
  onVec s fun u m => do
    let w := m.reg p
    let g := fld w 21 18 + 1
    let tb := fld w 17 12
    let extra := (natRange g (16 - g)).any fun h => groupCount (m.reg q) (m.reg r) h ≠ 0
    if fld w 63 22 ≠ 0 || extra || tb + g > 64 then .ok (s.raise u .x cILLEGAL 0 0)
    else
      let ta ← m.mTile (w.extractLsb' 6 6)
      let groups := groupsOf (m.reg q) (m.reg r) g
      if (groups.foldl (fun n x => n + x.2.2) 0) ≠ ta.rows then .ok (s.raise u .x cILLEGAL 0 0)
      else
        let tbs ← m.groupTiles ta tb groups
        .ok (s.matrixCommand u m (fld w 5 0) ta.rows (ta :: tbs) fun s1 core l =>
          match l with
          | [] => s1
          | x :: ys => (groups.zip ys).foldl (fun (acc : State) e => acc.multiply core (fld w 5 0) e.1.2.1 e.1.2.2 x e.2) s1)

/-- Formats of AADD (R327). -/
def aaddFmts : List Nat := [0x0, 0x1, 0x2, 0x3, 0x4, 0x5, 0x6, 0x7, 0x8, 0x9, 0xA, 0xC, 0xD]

/-- AADD (R328). -/
def execAadd (d a : Field) (s : State) : Host.Outcome State Fault Refusal :=
  onVec s fun u m => do
    let ta ← m.vTile a aaddFmts
    if ta.cols > 64 then .error a
    .ok (s.matrixCommand u m d.toNat ta.rows [ta] fun s1 core l =>
      match l with
      | [x] =>
        let rows := (List.range ta.rows).map (s1.rowVals core x)
        s1.mapRows core d.toNat 0 ta.rows ta.cols fun r c e =>
          rndAx (Val.add false (fAX64.decFloat e) ((rows.getD r []).getD c .nan))
      | _ => s1)

/-! ### TUNPK -/

/-- Formats that accumulator rows are converted to (R334, R446). -/
def drainFmts : List Nat := [0x0, 0x1, 0x2, 0x3, 0x4, 0x8, 0x9, 0xC, 0xD]

/-- TUNPK (R446): no vector word, so the mask does not apply. -/
def execTunpk (d a : Field) (r : BitVec 3) (s : State) : Host.Outcome State Fault Refusal :=
  onVec s fun u m => do
    let td ← m.vTile d drainFmts
    if td.scaled || td.cols > 64 then .error d
    .ok (match m.place with
      | none => s
      | some loc =>
        let core := locCore loc
        match s.rowBanks u core a.toNat td.rows with
        | some (e, k) => s.raise u .x e k 0
        | none =>
          let mode := m.mode r
          let banks := (List.range (ceilDiv td.rows 16)).map fun p => s.bank core (a.toNat + p)
          (s.elems u { m with masks := [BitVec.allOnes 1024] } td mode fun k l =>
            .rnd (fmtOf td.fmt) mode m.ieee l
              (fAX64.decFloat (bankEntry (banks.getD (k / td.cols / 16) 0) (k / td.cols % 16) (k % td.cols)))).done u .x)

/-! ### Drains -/

/-- A descriptor meets the table of R334. -/
def drainDescOk (w : Word) : Bool :=
  let f := fld w 23 20
  let pitch := fld w 63 32
  let rnd := fld w 26 24
  1 ≤ fld w 12 6 && fld w 12 6 ≤ 64 && 1 ≤ fld w 19 13 && fld w 19 13 ≤ 64 && drainFmts.contains f &&
  (rnd ≤ 4 || rnd = 7) && fld w 31 27 = 0 && pitch % 16 = 0 && fld w 19 13 * fmtWidth f / 8 ≤ pitch &&
  fld w 5 0 + ceilDiv (fld w 12 6) 16 ≤ 64

/-- How far a drain has come. -/
structure DrainAt where
  row : Nat
  ovf : Nat
  iovf : Bool
  deriving DecidableEq, Repr

/-- The element values of row `r`: the lane of column c is 64 (r mod 16) + c (R335). -/
def State.drainRow (core : Nat) (desc : Word) (mode : Mode) (ieee : Bool) (lanes : BitVec 32768) (r : Nat) (s : State) : ElemAcc :=
  let b := s.bank core (fld desc 5 0 + r / 16)
  (List.range (fld desc 19 13)).foldl (fun (acc : ElemAcc) c =>
    let lane := laneAt16 r c
    let e := (fmtOf (fld desc 23 20)).rnd mode ieee (lfsrOf acc.lanes lane) (fAX64.decFloat (bankEntry b (r % 16) c))
    { out := e.bits :: acc.out
      lanes := if mode == .rsto then stepLane acc.lanes lane else acc.lanes
      ovf := acc.ovf + b2n e.ovf
      iovf := acc.iovf || e.iovf }) ⟨[], lanes, 0, false⟩
where laneAt16 (r c : Nat) : Nat := 64 * (r % 16) + c

/-- The trailer of R115. -/
def drainTrailer (d : DrainAt) (rows : Nat) : Nat := min 0xFFFF d.ovf + b2n d.iovf * 2 ^ 16 + rows * 2 ^ 32

/-- `drain` (R335), from a row on: the rows in ascending order, and then the trailer; `todo` counts the rows left. -/
def State.drain (s : State) (u : Nat) (c : Client) (core : Nat) (dst desc : Word) (mode : Mode) (ieee : Bool) :
    Nat → DrainAt → State × DrainAt × PartEnd
  | 0, d =>
    let rows := fld desc 12 6
    let w := fmtWidth (fld desc 23 20)
    let last := dst.toNat + (rows - 1) * fld desc 63 32 + fld desc 19 13 * w / 8
    let at_ := wd (ceilDiv last 16 * 16)
    match s.checkRange c at_ 16 true with
    | (s1, .fault e a _) => (s1, d, .fault e a)
    | (s1, .stall x) => (s1, d, .stall x)
    | (s1, .ok parts) => (s1.writeParts (drainTrailer d rows) parts, d, .done)
  | todo + 1, d =>
    let w := fmtWidth (fld desc 23 20)
    let at_ := dst + wd (d.row * fld desc 63 32)
    match s.checkRange c at_ (fld desc 19 13 * w / 8) true with
    | (s1, .fault e a _) => (s1, d, .fault e a)
    | (s1, .stall x) => (s1, d, .stall x)
    | (s1, .ok parts) => match s1.strand u with
      | none => (s1, d, .done)
      | some m =>
        let acc := s1.drainRow core desc mode ieee m.lanes d.row
        let s2 := (s1.writeParts (packNat w acc.out.reverse) parts).upd u fun k => { k with lanes := acc.lanes }
        s2.drain u c core dst desc mode ieee todo ⟨d.row + 1, d.ovf + acc.ovf, d.iovf || acc.iovf⟩

/-- The checks of R336 before any row: ILLEGAL, ALIGN, the banks in ascending order. Banks of `early` were released by a later
word, and the drain, which is earlier in text order, still has them (R153). -/
def State.drainCheck (s : State) (u core : Nat) (early : BitVec 64) (dst desc : Word) : Option (BitVec 8 × Word) :=
  if !drainDescOk desc then some (cILLEGAL, 0)
  else if dst.toNat % 16 ≠ 0 then some (cALIGN, dst)
  else (natRange (fld desc 5 0) (ceilDiv (fld desc 12 6) 16)).findSome? fun k =>
    if early.getLsbD k then none else (s.bankCheck u core k).map fun e => (e, wd k)

/-- The rounding code in force for a descriptor (R335). -/
def drainRnd (m : Strand) (desc : Word) : BitVec 3 := if fld desc 26 24 = 7 then m.rnd else BitVec.ofNat 3 (fld desc 26 24)

/-- ADRAIN (R335, R336): in the X stream, row by row; a fault leaves its progress (R247). FPROG of an
issue check that fails is 0 (log 118). -/
def execAdrain (p q : Field) (s : State) : Host.Outcome State Fault Refusal :=
  onWord s .x false false fun u m =>
    match s.clientOf m, m.place with
    | some c, some loc =>
      let core := locCore loc
      let (dst, desc) := (m.reg p, m.reg q)
      match s.drainCheck u core 0 dst desc with
      | some (e, a) => s.raise u .x e a 0
      | none =>
        let pos := m.x.pos
        let g := (m.progAt pos).getD ⟨pos, 0, 0, 0, false, false⟩
        let out := s.drain u c core dst desc (Mode.ofCode (drainRnd m desc).toNat) m.ieee (fld desc 12 6 - g.count)
          ⟨g.count, g.ovf.toNat, g.iovf⟩
        let d := out.2.1
        let keep := fun (live : Bool) => (⟨pos, d.row, 0, BitVec.ofNat 16 (min 0xFFFF d.ovf), d.iovf, live⟩ : Progress)
        match out.2.2 with
        | .done => out.1.upd u fun k => (k.dropProg pos).retire .x
        | .fault e a => (out.1.upd u fun k => k.setProg (keep false)).raise u .x e a (fprog 3 d.row)
        | .stall w => out.1.upd u fun k => (k.setProg (keep (d.row ≠ 0))).setWait .x w
    | _, _ => s

/-- The banks released under an AST that faults are OWNED again while the bank is stopped, or DRAINING again at the restart
(R153, R247). -/
def State.setDraining (s : State) (u core : Nat) (freed : BitVec 64) (draining : Bool) : State :=
  (List.range 64).foldl (fun (acc : State) j =>
    if freed.getLsbD j then { acc with accOwner := tabPut acc.accOwner (unitKey core j) ⟨u, draining⟩ } else acc) s

/-- AST (R346): its checks, and then the store engine runs it while the S stream goes on. FPROG of an issue check that
fails is 0 (log 118). -/
def execAst (p q : Field) (_x : Bool) (s : State) : Host.Outcome State Fault Refusal :=
  onWord s .s false false fun u m =>
    match m.place with
    | none => s
    | some loc =>
      let (dst, desc) := (m.reg p, m.reg q)
      let early := tabAt m.early 0 m.s.pos
      match s.drainCheck u (locCore loc) early dst desc with
      | some (e, a) => (s.setDraining u (locCore loc) early false).raise u .s e a 0
      | none =>
        let a : Ast :=
          { pos := m.s.pos, pc := m.s.pc, dst := dst, desc := desc, row := 0, ovf := 0, iovf := false, freed := early
            rnd := drainRnd m desc, ieee := m.ieee, stopped := false, dmap := m.dmap }
        s.setStrand u (Strand.retire { m with asts := m.asts ++ [a], early := tabDel m.early m.s.pos } .s)

/-- The banks released under an AST that has finished become FREE, unless another AST still holds them back (R153). -/
def State.freeDrained (s : State) (u core : Nat) (freed : BitVec 64) : State :=
  let others : List (BitVec 64) := match s.strand u with
    | none => []
    | some m => m.asts.map Ast.freed ++ m.early.map fun e => e.2
  (List.range 64).foldl (fun (acc : State) j =>
    if freed.getLsbD j && !(others.any fun x => x.getLsbD j) then
      { acc with accOwner := tabDel acc.accOwner (unitKey core j) }
    else acc) s

/-- AST_FINISH (R247, R335, R346): the strand's first running AST stores its rows and its trailer, or stops at a row. -/
def execAstFinish (loc : Loc) (s : State) : Host.Outcome State Fault Refusal :=
  .next (match s.onBank loc.toNat with
    | none => s
    | some (u, m) => match m.asts.find? (fun a => !a.stopped), s.clientOf m with
      | some a, some c =>
        let core := locCore loc.toNat
        let out := s.drain u { c with dmap := a.dmap } core a.dst a.desc (Mode.ofCode a.rnd.toNat) a.ieee (fld a.desc 12 6 - a.row)
          ⟨a.row, a.ovf.toNat, a.iovf⟩
        let d := out.2.1
        let at_ := fun (stop : Bool) (k : Strand) => k.mapAsts fun (x : Ast) =>
          if x.pos = a.pos then { x with row := d.row, ovf := BitVec.ofNat 16 (min 0xFFFF d.ovf), iovf := d.iovf, stopped := stop }
          else x
        match out.2.2 with
        | .done =>
          ((out.1.upd u fun k => k.dropAst a.pos).freeDrained u core a.freed).takeFault u
        | .stall _ => out.1.upd u (at_ false)
        | .fault e va =>
          let s1 := (out.1.upd u (at_ true)).setDraining u core a.freed false
          (s1.upd u fun k => k.note
            { sync := true, pos := a.pos, pc := a.pc, slot := 0, stream := .s, cause := e, addr := va
              prog := fprog 3 d.row }).takeFault u
      | _, _ => s)

end Sys2Proof.Machine
end

