-- ==== Sys2Proof/Machine/Page.lean ====
section
/-! DEFINITION. TLB invalidation (R177, R434), the page procedures PGSPLIT, PGCOLL and PGMIG (R179 to R183, R405 to R407,
R494), and the end of a hardware page copy (R173). -/

namespace Sys2Proof.Machine

/-! ### Invalidation -/

/-- The address checks of R177 and R406: orders 1, 3, 4 and 5 of R174, domain 31 being out of range. The answer is the
space and the die at which it is served, a former home forwarding once (R164). -/
def State.spaceCheck (s : State) (c : Client) (va : Word) : State × Res Spot :=
  if fld va 63 57 ≠ 0 || fld va 56 52 = 31 then (s, .fault cADDR_RANGE)
  else match s.resolve c va with
    | (s1, .ok p) =>
      if s1.legHeld c.die c.die p.die then (s1, .stall .none)
      else if !s1.reach c.die p.die p.off then (s1, .fault cPEER_UNREACHABLE) else
        match s1.servedAt c.die p.die c.job p.key p.off with
        | none => (s1, .fault cPEER_UNREACHABLE)
        | some d => if s1.legHeld c.die p.die d then (s1, .stall .none) else (s1, .ok { p with die := d })
    | (s1, r) => (s1, r)

/-- The dies of the replica set of a READ_DUP leaf, by the table of the die that holds the leaf. -/
def State.replicas (s : State) (d : DieKey) (leaf : Word) : List DieKey :=
  if leafMode leaf = 1 then ((s.die d).rset (leafRset leaf)).map dieOfPeer else []

/-- The page form of R177: the target die, and the dies of the replica set of a READ_DUP leaf. R177 does not say what happens at a die of
the set that is not reached; its entries are removed at once, as everywhere, and no route is looked up for them (log 114). -/
def State.tlbInval (s : State) (job : BitVec 32) (p : Spot) : State :=
  let d := s.die p.die
  let walked := match s.walk p.die job p.key p.off with
    | some l => s.replicas p.die l.leaf
    | none => []
  let cached := match d.tlbHit job p.key p.off with
    | some e => s.replicas p.die e.leaf
    | none => []
  (p.die :: walked ++ cached).foldl (fun acc k => acc.invalPage k job p.key p.off) s

/-- A request that an entry of a space has translated has yet to be performed at memory (R177): of all requests only one
that was forwarded with its physical address has been translated earlier. -/
def State.translatedOut (s : State) (job : BitVec 32) (key : Nat) : Bool :=
  s.msgs.any fun m => match m.body with
    | .access a => a.phys.isSome && a.job = job && a.key = key
    | .polder a _ => a.job = job && a.key = key
    | .cellReq a _ => a.phys.isSome && a.job = job && a.key = key
    | .cellRel a _ => a.phys.isSome && a.job = job && a.key = key
    | _ => false

/-- TLBI and TLBI.SP (R177, R434). -/
def tlbiWord (p : Field) (space : Bool) (s : State) : Host.Outcome State Fault Refusal :=
  onWord s .c false true fun u m =>
    match s.clientOf m with
    | none => s
    | some c => match s.spaceCheck c (m.reg p) with
      | (s1, .fault e) => s1.raise u .c e (m.reg p) 0
      | (s1, .stall _) => s1
      | (s1, .ok q) =>
        if s1.translatedOut c.job q.key then s1
        else (if space then s1.invalSpace q.die c.job q.key else s1.tlbInval c.job q).done u .c

/-- TLBI (R177). -/
def execTlbi (p : Field) (s : State) : Host.Outcome State Fault Refusal := tlbiWord p false s

/-- TLBI.SP (R177). -/
def execTlbiSp (p : Field) (s : State) : Host.Outcome State Fault Refusal := tlbiWord p true s

/-- A TLBI is held: a request that an entry of its space has translated is still out (R177), or its address cannot be checked
yet. -/
def State.tlbiHeld (s : State) (m : Strand) (p : Field) : Bool :=
  m.priv && match s.clientOf m with
    | none => false
    | some c => match s.spaceCheck c (m.reg p) with
      | (s1, .ok q) => s1.translatedOut c.job q.key
      | (_, .stall _) => true
      | (_, .fault _) => false

/-! ### Frames, tables, copies -/

/-- Copies bytes from one place to another, as plain bits (R126). -/
def State.copyBytes (s : State) (src dst n : Nat) : State :=
  let from_ := s.mem.filter fun e => src ≤ e.1 && e.1 < src + n
  let clear := s.mem.filter fun e => !(dst ≤ e.1 && e.1 < dst + n)
  { s with mem := from_.foldl (fun acc e => Memory.write acc (e.1 - src + dst) e.2) clear }

/-- Byte `j` of what is copied to an address of DRAM falls into frames that the destination's die has lent. -/
def State.lentFrame (s : State) (dst j : Nat) : Bool :=
  dst < 2 ^ 52 && (s.die (BitVec.ofNat 12 (dst / 2 ^ 40))).lent fun p => p.covers (dst % 2 ^ 40 / 65536 + j / 65536)

/-- As `copyBytes`, where Barchan or the page engine has taken the frames of the destination: bytes of them that software has lent since,
against R186, stay as they are (R17, log 105). -/
def State.copyOwn (s : State) (src dst n : Nat) : State :=
  let from_ := s.mem.filter fun e => src ≤ e.1 && e.1 < src + n && !s.lentFrame dst (e.1 - src)
  let clear := s.mem.filter fun e => !(dst ≤ e.1 && e.1 < dst + n && !s.lentFrame dst (e.1 - dst))
  { s with mem := from_.foldl (fun acc e => Memory.write acc (e.1 - src + dst) e.2) clear }

/-- Returns frames to a pool. -/
def Die.giveFrames (d : Die) (lpddr : Bool) (first count : Nat) : Die :=
  if lpddr then { d with lpddrPool := extentAdd d.lpddrPool first count }
  else { d with hbmPool := extentAdd d.hbmPool first count }

/-- Takes `parts` 256-byte parts from the table pools: 1 for a level-0 table, 32 for an 8 KiB block; the HBM4E pool first
(R494, log 24). The answer is the tier, the first part and the die. -/
def Die.takeTable (d : Die) (parts : Nat) : Option (Bool × Nat × Die) :=
  match extentTake (d.unlent 256 d.hbmTables) parts with
  | some f => some (false, f, { d with hbmTables := extentDel d.hbmTables f parts })
  | none => (extentTake d.lpddrTables parts).map fun f =>
      (true, f, { d with lpddrTables := extentDel d.lpddrTables f parts })

/-- Where a leaf's bytes lie: the die and the model's address of the page. -/
def leafPlace (d : DieKey) (leaf : Word) : DieKey × Nat :=
  let f := leafFrame leaf * 65536
  if leafTier leaf = 0 then (d, hbmAddr d.toNat f)
  else if leafTier leaf = 1 then (d, lpddrAddr d.toNat f)
  else
    let p := dieOfPeer (leafPeer leaf)
    (p, hbmAddr p.toNat f)

/-- Returns a leaf's frames to the pool that they belong to; a polder's frames belong to no pool of the lender (R186). -/
def State.freeLeaf (s : State) (d : DieKey) (leaf : Word) : State :=
  let n := sizeUnits (leafSize leaf)
  match leafTier leaf with
  | 0 => s.updDie d fun v => v.giveFrames false (leafFrame leaf) n
  | 1 => s.updDie d fun v => v.giveFrames true (leafFrame leaf) n
  | 3 => s.updDie (dieOfPeer (leafPeer leaf)) fun v => v.giveFrames false (leafFrame leaf) n
  | _ => s

/-- A page moves from under one leaf to a new place: its bytes and its cells (R209) go there. -/
def State.movePage (s : State) (job : BitVec 32) (d : DieKey) (old new : Word) : State :=
  let n := 2 ^ sizeBits (leafSize old)
  let (dOld, a) := leafPlace d old
  let (dNew, b) := leafPlace d new
  (s.copyOwn a b n).moveCells job d dOld a dNew b n

/-! ### Page procedures -/

/-- The status with which a procedure ends at once (R179, R183), before it holds its page. -/
def pageEarly (v : Die) (job : BitVec 32) (p : Spot) (leaf : Option LeafAt) (bad : Bool) : Option Nat :=
  match leaf with
  | none => some 1
  | some l =>
    if bad then some 1
    else if (v.heldAt job p.key p.off).isSome then some 3
    else if leafMode l.leaf = 3 then some 4
    else none

/-- A procedure's word (R405, R406): the checks, a status decided at once, or the page held until PAGE_PROCEDURE_DONE. A page that a
sweep has yet to do is swept before it is held (R135). -/
def pageWord (s : State) (d a : Field) (arg : Strand → Word) (argBits : Nat) (stalls : Bool) :
    Host.Outcome State Fault Refusal :=
  onWord s .c false true fun u m =>
    match s.clientOf m with
    | none => s
    | some c => match s.spaceCheck c (m.reg a) with
      | (s1, .fault e) => s1.raise u .c e (m.reg a) 0
      | (s1, .stall _) => s1
      | (s1, .ok p) =>
        let leaf := s1.walk p.die c.job p.key p.off
        match pageEarly (s1.die p.die) c.job p leaf ((arg m).toNat ≥ 2 ^ argBits), leaf with
        | none, some l =>
          let off := p.off / 2 ^ sizeBits l.size * 2 ^ sizeBits l.size
          match s1.unsweptIn p.die c.job p.key off (sizeUnits l.size) with
          | some (r, page) => s1.askSweep r page
          | none =>
          let hold : Held := ⟨c.job, p.key, off, BitVec.ofNat 2 l.size, .procedure u (arg m) stalls p.off⟩
          ((p.die :: (s1.replicas p.die l.leaf).filter (· ≠ p.die)).foldl (fun (acc : State) k =>
            acc.updDie k fun v => { v with held := v.held ++ [hold] }) s1).waitFor u .c .page
        | e, _ => s1.upd u fun n => (n.setReg d (wd (e.getD 1))).retire .c

/-- A page procedure's word is held: a sweep has yet to do its page (R135), or its address cannot be checked yet. -/
def State.pageHeldBack (s : State) (m : Strand) (a : Field) (arg : Word) (argBits : Nat) : Bool :=
  m.priv && match s.clientOf m with
    | none => false
    | some c => match s.spaceCheck c (m.reg a) with
      | (_, .fault _) => false
      | (_, .stall _) => true
      | (s1, .ok p) =>
        let leaf := s1.walk p.die c.job p.key p.off
        match pageEarly (s1.die p.die) c.job p leaf (arg.toNat ≥ 2 ^ argBits), leaf with
        | none, some l =>
          (s1.unsweptIn p.die c.job p.key (p.off / 2 ^ sizeBits l.size * 2 ^ sizeBits l.size) (sizeUnits l.size)).isSome
        | _, _ => false

/-- PGSPLIT (R180). -/
def execPgsplit (d a : Field) (s : State) : Host.Outcome State Fault Refusal := pageWord s d a (fun _ => 0) 64 false

/-- PGCOLL (R181). -/
def execPgcoll (d a b : Field) (s : State) : Host.Outcome State Fault Refusal := pageWord s d a (fun m => m.reg b) 12 true

/-- PGMIG (R182). -/
def execPgmig (d a b : Field) (s : State) : Host.Outcome State Fault Refusal := pageWord s d a (fun m => m.reg b) 13 true

/-- The offset at which a hold's page is walked: the one that a procedure's word gives (R179), or the page's first. -/
def Held.ga (h : Held) : Nat := match h.by_ with
  | .procedure _ _ _ a => a
  | _ => h.off

/-- The leaves of a procedure's page at its dies, if each die translates the offset with the same size and mode; a die that does not
gives status 1 (R180, log 91). -/
def State.sameLeaves (s : State) (job : BitVec 32) (key off : Nat) (l : LeafAt) : List DieKey → Option (List (DieKey × LeafAt))
  | [] => some []
  | k :: r => match s.walk k job key off with
    | none => none
    | some x =>
      if x.size ≠ l.size || leafMode x.leaf ≠ leafMode l.leaf then none else
        match s.sameLeaves job key off l r with
        | none => none
        | some y => some ((k, x) :: y)

/-- A sub-leaf of a large leaf (R178). -/
def subLeaf (leaf : Word) (size i : Nat) : Word :=
  let sub := size - 1
  let f := leafFrame leaf + i * sizeUnits sub
  wd (1 + sub * 2 + fld leaf 23 3 * 8 + f * 2 ^ 24 + leafRset leaf * 2 ^ 56)

/-- Splits a leaf at one die (R178). Where the slot has a lower table already, its valid leaves stay, since they are what
the walk finds, and the others are filled in (log 24). None if the table pools are empty. -/
def State.splitAt (s : State) (k : DieKey) (l : LeafAt) : Option State :=
  let n := if l.size = 1 then 32 else 512
  let stride := if l.size = 1 then 8 else 16
  let slot := s.physWord k l.lpddr (l.at_ + 8)
  let fill := fun (x : State) (lp : Bool) (base : Nat) (fresh : Bool) =>
    (List.range n).foldl (fun (acc : State) i =>
      let at_ := base + stride * i
      if !fresh && leafV (acc.physWord k lp at_) then acc
      else
        let acc1 := acc.setPhysWord k lp at_ (subLeaf l.leaf l.size i)
        if fresh && stride = 16 then acc1.setPhysWord k lp (at_ + 8) 0 else acc1) x
  if tblV slot then some ((fill s (tblTier slot) (tblAddr slot) false).setPhysWord k l.lpddr l.at_ 0)
  else match (s.die k).takeTable (if l.size = 1 then 1 else 32) with
    | none => none
    | some (lp, part, v) =>
      let s1 := fill (s.setDie k v) lp (part * 256) true
      some ((s1.setPhysWord k l.lpddr (l.at_ + 8) (wd (1 + b2n lp * 2 + part * 256))).setPhysWord k l.lpddr l.at_ 0)

/-- Splits at each die in turn. -/
def State.splitAll (s : State) : List (DieKey × LeafAt) → Option State
  | [] => some s
  | (k, l) :: r => match s.splitAt k l with
    | none => none
    | some s1 => s1.splitAll r

/-- Invalidates a page at several dies. -/
def State.invalAll (s : State) (job : BitVec 32) (key off : Nat) (l : List DieKey) : State :=
  l.foldl (fun acc k => acc.invalPage k job key off) s

/-- PGSPLIT's end: status and state (R180). -/
def State.pgsplit (s : State) (job : BitVec 32) (key off : Nat) (l : LeafAt) (dies : List DieKey) : Nat × State :=
  if l.size = 0 then (1, s) else
    match s.sameLeaves job key off l dies with
    | none => (1, s)
    | some all => match s.splitAll all with
      | none => (2, s)
      | some s1 => (0, s1.invalAll job key off dies)

/-- PGCOLL's end (R181). -/
def State.pgcoll (s : State) (job : BitVec 32) (key off : Nat) (l : LeafAt) (dies : List DieKey) (arg : Word) : Nat × State :=
  let owner := dieOfPeer (BitVec.ofNat 12 arg.toNat)
  if leafMode l.leaf ≠ 1 || !dies.contains owner then (1, s) else
    match s.sameLeaves job key off l dies with
    | none => (1, s)
    | some all => match all.find? (fun e => e.1 = owner) with
      | none => (1, s)
      | some (_, o) =>
          let s1 := all.foldl (fun (acc : State) e =>
            if e.1 = owner then
              acc.setPhysWord e.1 e.2.lpddr e.2.at_
                (setLeaf e.2.leaf (leafTier e.2.leaf) 0 (leafPeer e.2.leaf) (leafFrame e.2.leaf) 0)
            else
              (acc.setPhysWord e.1 e.2.lpddr e.2.at_
                (setLeaf e.2.leaf 3 0 (peerOf owner) (leafFrame o.leaf) 0)).freeLeaf e.1 e.2.leaf) s
          (0, s1.invalAll job key off dies)

/-- The leaf of a page moved to a frame of a die, as die `k` writes it (R173, R182). -/
def movedLeaf (leaf : Word) (k dest : DieKey) (lpddr : Bool) (frame : Nat) : Word :=
  if dest = k then setLeaf leaf (b2n lpddr) (leafMode leaf) 0 frame (leafRset leaf)
  else setLeaf leaf 3 (leafMode leaf) (peerOf dest) frame (leafRset leaf)

/-- PGMIG's end (R182). A page on a polder is copied whatever the state of its lease (log 92). -/
def State.pgmig (s : State) (k : DieKey) (job : BitVec 32) (key off : Nat) (l : LeafAt) (arg : Word) : Nat × State :=
  let dest := dieOfPeer (BitVec.ofNat 12 arg.toNat)
  let lpddr := bit arg 12
  if leafMode l.leaf = 1 || (dest ≠ k && lpddr) then (1, s)
  else if !s.reach k dest off || !s.reach k (leafPlace k l.leaf).1 off then (5, s)
  else match (s.die dest).takeFrames lpddr (sizeUnits l.size) with
    | none => (2, s)
    | some (f, v) =>
      let new := movedLeaf l.leaf k dest lpddr f
      let s1 := (s.setDie dest v).movePage job k l.leaf new
      (0, ((s1.setPhysWord k l.lpddr l.at_ new).freeLeaf k l.leaf).invalPage k job key off)

/-- The end of the procedure that the word at a stream stands for, on the leaf that translates the word's address. For a READ_DUP leaf it acts at the dies of the replica set and at
no other (R180, log 91). -/
def State.pageEnd (s : State) (i : Instr) (k : DieKey) (h : Held) (arg : Word) : Nat × State :=
  match s.walk k h.job h.key h.ga with
  | none => (1, s)
  | some l =>
    let dies := match s.replicas k l.leaf with
      | [] => [k]
      | r => r
    if !dies.all (fun d => s.reach k d h.ga) then (5, s)
    else match i with
      | .pgsplit _ _ => s.pgsplit h.job h.key h.ga l dies
      | .pgcoll _ _ _ => s.pgcoll h.job h.key h.ga l dies arg
      | _ => s.pgmig k h.job h.key h.ga l arg

/-- The register that receives a procedure's status. -/
def pageDst : Instr → Option Field
  | .pgsplit d _ => some d
  | .pgcoll d _ _ => some d
  | .pgmig d _ _ => some d
  | _ => none

/-- The holds of a strand's procedure end. -/
def State.dropHolds (s : State) (u : Nat) : State :=
  { s with dies := s.dies.map fun e => (e.1, { e.2 with held := e.2.held.filter fun h => match h.by_ with
    | .procedure v _ _ _ => v ≠ u
    | _ => true }) }

/-- The die that translates a procedure's page, with its hold: the first die of the hold, in the order in which it was
taken. -/
def State.heldBy (s : State) (u : Nat) (c : Client) (va : Word) : Option (DieKey × Held × Word) :=
  match s.spaceCheck c va with
  | (_, .ok p) => match (s.die p.die).heldAt c.job p.key p.off with
    | some h => match h.by_ with
      | .procedure v arg _ _ => if v = u then some (p.die, h, arg) else none
      | _ => none
    | none => none
  | _ => none

/-- PAGE_PROCEDURE_DONE (R179 to R183): once no request that an old leaf has translated is on its way and none of the die is held
(R257), the procedure takes
effect, the status is written and the word retires; a page that an open snapshot has yet to copy is copied there first
(R273). Where a migration has taken the page meanwhile, the page was held
by Barchan (status 3). -/
def execPageProcedureDone (loc : Loc) (s : State) : Host.Outcome State Fault Refusal :=
  .next (match s.onBank loc.toNat with
    | none => s
    | some (u, m) =>
      if m.c.wait ≠ .page then s else
        match (m.wordAt m.c.pos).bind fun w => decode w.bits with
        | none => s
        | some i =>
          let found := s.dies.findSome? fun e => e.2.held.findSome? fun h => match h.by_ with
            | .procedure v arg _ _ => if v = u then some (BitVec.ofNat 12 e.1, h, arg) else none
            | _ => none
          let start := (s.clientOf m).bind fun c => match i with
            | .pgsplit _ a => s.heldBy u c (m.reg a)
            | .pgcoll _ a _ => s.heldBy u c (m.reg a)
            | .pgmig _ a _ => s.heldBy u c (m.reg a)
            | _ => none
          match start.or found, pageDst i with
          | some (k, h, arg), some d =>
            if s.translatedOut h.job h.key || s.dieHeld k then s
            else match s.uncopiedIn k h.job h.key h.off (sizeUnits h.size.toNat) with
            | some (r, page) => s.askSnap r page
            | none =>
              let (status, s1) := s.pageEnd i k h arg
              ((s1.dropHolds u).upd u fun n => (n.setReg d (wd status)).retire .c).takeFault u
          | none, some d => (s.upd u fun n => (n.setReg d 3).retire .c).takeFault u
          | _, none => s)

/-! ### Hardware migration -/

/-- HW_MIGRATION_DONE (R173): the page copy of a die that was begun first ends; the PTE takes the new frame, the old one
returns to its pool, and the page's counts restart at zero. A leaf that no longer translates the page keeps its place, and the
frame goes back; so it does where the requester's home die or the die that holds the bytes is not reached (log 107). A page on a polder is copied whatever the state of its lease (log 92). -/
def execHwMigrationDone (die : DieKey) (s : State) : Host.Outcome State Fault Refusal :=
  .next (match (s.die die).held.findSome? fun h => match h.by_ with
      | .hwMigration home f => some (h, home, f)
      | _ => none with
    | none => s
    | some (h, home, f) =>
      if s.translatedOut h.job h.key || s.dieHeld die then s
      else match s.uncopiedIn die h.job h.key h.off 1 with
      | some (r, page) => s.askSnap r page
      | none =>
        let s1 := s.updDie die fun v => { v with held := v.held.erase h }.zeroCounts h.job h.key (h.off / 65536)
        match s1.walk die h.job h.key h.off with
        | some l =>
          if l.size ≠ 0 || leafMode l.leaf ≠ 2 || !s1.reach die home h.off || !s1.reach die (leafPlace die l.leaf).1 h.off then
            s1.updDie home fun v => v.giveFrames false f 1
          else
            let new := movedLeaf l.leaf die home false f
            let s2 := s1.movePage h.job die l.leaf new
            ((s2.setPhysWord die l.lpddr l.at_ new).freeLeaf die l.leaf).invalPage die h.job h.key h.off
        | none => s1.updDie home fun v => v.giveFrames false f 1)

end Sys2Proof.Machine
end

