-- ==== Sys2Proof/Machine/Segment.lean ====
section
/-! DEFINITION. Segments of LS and CS: their save frames (R232), binding with claim, save and restore (R156 to R160), and the
arrival counter of an abandoned command. -/

namespace Sys2Proof.Machine

/-- The address of a place in a context image (R232). -/
def Rank.imageVa (r : Rank) (image off : Nat) : Word := r.savebase + wd (image * 0x2000000 + off)

/-- Where an LS segment is saved: its bytes, and its full-empty page (R232). -/
def Rank.lsFrame (r : Rank) (image gcore lseg : Nat) : Word × Word :=
  (r.imageVa image (0x700000 + (24 * gcore + lseg) * 0x10000), r.imageVa image (0x1F00000 + (24 * gcore + lseg) * 0x1000))

/-- Where a CS segment is saved (R232). -/
def Rank.csFrame (r : Rank) (lp lseg : Nat) : Word := r.csbase + wd (lp * 0x1000000 + lseg * 0x10000)

/-- How a save or a restore ends. -/
inductive Moved where
  | ok (s : State)
  | fail (s : State) (cause : BitVec 8) (at_ : Word)
  | stall (s : State)
  deriving DecidableEq, Repr

/-- The full-empty bits of the 4,096 granules from an LS address on, as a number. -/
def State.feNumber (s : State) (addr : Nat) : Nat :=
  match granuleOf addr with
  | none => 0
  | some g => (s.fe.filter fun k => g ≤ k && k < g + 4096).foldl (fun acc k => acc + 2 ^ (k - g)) 0

/-- Sets the full-empty bits of the 4,096 granules from an LS address on. -/
def State.setFe (s : State) (addr v : Nat) : State :=
  match granuleOf addr with
  | none => s
  | some g =>
    let rest := s.fe.filter fun k => !(g ≤ k && k < g + 4096)
    { s with fe := (List.range 4096).foldl (fun acc i => if v / 2 ^ i % 2 = 1 then natIns acc (g + i) else acc) rest }

/-- Saves the bytes of a segment to its frame, and for LS its full-empty bits, one bit for each granule in order. -/
def State.saveSeg (s : State) (r : Rank) (key addr : Nat) (frame : Word) (fePage : Option Word) : Moved :=
  match s.access (r.client key) frame 65536 true with
  | (s1, .fault e) => .fail s1 e frame
  | (s1, .stall _) => .stall s1
  | (s1, .ok t) =>
    let s2 := s1.copyBytes addr t.addr 65536
    match fePage with
    | none => .ok s2
    | some q => match s2.access (r.client key) q 4096 true with
      | (s3, .fault e) => .fail s3 e q
      | (s3, .stall _) => .stall s3
      | (s3, .ok p) => .ok (s3.wr p.addr 512 (s3.feNumber addr))

/-- Restores a segment. -/
def State.restoreSeg (s : State) (r : Rank) (key addr : Nat) (frame : Word) (fePage : Option Word) : Moved :=
  match s.access (r.client key) frame 65536 false with
  | (s1, .fault e) => .fail s1 e frame
  | (s1, .stall _) => .stall s1
  | (s1, .ok t) =>
    match fePage with
    | none => .ok (s1.copyBytes t.addr addr 65536)
    | some q => match s1.access (r.client key) q 4096 false with
      | (s2, .fault e) => .fail s2 e q
      | (s2, .stall _) => .stall s2
      | (s2, .ok p) => .ok ((s2.copyBytes t.addr addr 65536).setFe addr (s2.rd p.addr 512))

/-- The event of a save or restore that cannot reach its frame (R160). -/
def State.saveFail (s : State) (key : Nat) (cause : BitVec 8) (at_ : Word) : State :=
  s.event key (evPayload 0x15 (cause.toNat * 256) at_.toNat)

/-- The byte address of physical segment `k` of the LS or CS table. -/
def segAddr (cs : Bool) (k : Nat) : Nat := if cs then csAddr (k / 256) (k % 256) 0 else lsAddr (k / 32) (k % 32) 0

/-- The owner records of the level. -/
def State.segs (s : State) (cs : Bool) : Tab SegRec := if cs then s.csSeg else s.lsSeg

def State.setSegs (s : State) (cs : Bool) (t : Tab SegRec) : State := if cs then { s with csSeg := t } else { s with lsSeg := t }

/-- Writes or removes the record of a segment; without one it is FREE. -/
def State.putSeg (s : State) (cs : Bool) (k : Nat) (e : SegRec) : State := s.setSegs cs (tabPut (s.segs cs) k e)

def State.freeSeg (s : State) (cs : Bool) (k : Nat) : State := s.setSegs cs (tabDel (s.segs cs) k)

/-- A segment in this state is being saved. -/
def SegState.saves : SegState → Bool
  | .saving _ _ _ _ => true
  | _ => false

/-- The state of a segment that is claimed for the logical segment of a record (R160). -/
def SegRec.claim (e : SegRec) : SegState := .saving e.rank e.holder e.lseg e.gcore

/-- Two records name the same logical segment of the same holder. -/
def SegRec.same (x e : SegRec) : Bool := x.rank = e.rank && x.holder = e.holder && x.lseg = e.lseg && x.gcore = e.gcore

/-- The frame of a record's segment; none for an LS holder that has no image. -/
def State.segFrame (s : State) (cs : Bool) (e : SegRec) : Option (Rank × Word × Option Word) :=
  match s.rank? e.rank with
  | none => none
  | some r =>
    if cs then some (r, r.csFrame e.holder e.lseg, none)
    else match (s.gang? e.holder).bind (·.image) with
      | none => none
      | some j =>
        let f := r.lsFrame j e.gcore e.lseg
        some (r, f.1, some f.2)

/-- The holder's image of a logical segment is valid from now on. -/
def State.markSaved (s : State) (cs : Bool) (e : SegRec) : State :=
  if cs then s.updRank e.rank fun r => { r with csSaved := natIns r.csSaved (e.holder * 256 + e.lseg) }
  else s.updGang e.holder fun g => { g with saved := natIns g.saved (24 * e.gcore + e.lseg) }

/-- The holder has a saved image of a logical segment. -/
def State.hasSaved (s : State) (cs : Bool) (e : SegRec) : Bool :=
  if cs then match s.rank? e.rank with
    | some r => r.csSaved.contains (e.holder * 256 + e.lseg)
    | none => false
  else match s.gang? e.holder with
    | some g => g.saved.contains (24 * e.gcore + e.lseg)
    | none => false

/-- When a holder was switched out (R157). -/
def State.holderLeft (s : State) (cs : Bool) (e : SegRec) : Nat :=
  if cs then match s.rank? e.rank with
    | some r => tabAt r.csLeft 0 e.holder
    | none => 0
  else match s.gang? e.holder with
    | some g => g.left
    | none => 0

/-- How a save of an IDLE segment or a try of a binding ends: done; or for want of a frame, so that the segment is as it was;
or not yet, and the segment is MOVING. -/
inductive Placed where
  | done (s : State)
  | failed (s : State)
  | waits (s : State)
  deriving DecidableEq, Repr

/-- The state that a try leaves. -/
def Placed.state : Placed → State
  | .done s => s
  | .failed s => s
  | .waits s => s

/-- Saves the segment of a record to its holder's frame. -/
def State.saveHolder (s : State) (cs : Bool) (k : Nat) (e : SegRec) : Moved :=
  match s.segFrame cs e with
  | none => .stall s
  | some (r, frame, fePage) => match s.saveSeg r e.rank (segAddr cs k) frame fePage with
    | .ok s1 => .ok (s1.markSaved cs e)
    | o => o

/-- Saves an IDLE segment, which is then FREE. -/
def State.evict (s : State) (cs : Bool) (k : Nat) (e : SegRec) : Placed :=
  match s.saveHolder cs k e with
  | .ok s1 => .done (s1.freeSeg cs k)
  | .fail s1 c a => .failed ((s1.saveFail e.rank c a).putSeg cs k { e with state := .idle })
  | .stall s1 => .waits (s1.putSeg cs k { e with state := e.claim })

/-- The bytes of a newly bound segment: the holder's saved image, or zeros with every granule empty (R157). -/
def State.fillSeg (s : State) (cs : Bool) (k : Nat) (e : SegRec) : Moved :=
  if s.hasSaved cs e then
    match s.segFrame cs e with
    | none => .stall s
    | some (r, frame, fePage) => s.restoreSeg r e.rank (segAddr cs k) frame fePage
  else
    let a := segAddr cs k
    let s1 : State := { s with mem := s.mem.filter fun x => !(a ≤ x.1 && x.1 < a + 65536) }
    .ok (if cs then s1 else s1.setFe a 0)

/-- One try of a binding at physical segment `k`, whose holder `v` is saved first if it has one (R157, R160). A save or a
restore that cannot reach its frame posts its event and leaves the segment to its former holder, or FREE if it had none (log 84);
one that must wait leaves it MOVING. -/
def State.bindAt (s : State) (cs : Bool) (e : SegRec) (k : Nat) (v : Option SegRec) : Placed :=
  let keep := fun (x : State) => match v with
    | some r => x.putSeg cs k { r with state := .idle }
    | none => x.freeSeg cs k
  let move := fun (x : State) => match v with
    | some r => x.putSeg cs k { r with state := e.claim }
    | none => x.putSeg cs k { e with state := .restoring }
  match (match v with
    | some r => s.saveHolder cs k r
    | none => .ok s) with
  | .stall s1 => .waits (move s1)
  | .fail s1 c a => .failed (keep (s1.saveFail ((v.map (·.rank)).getD e.rank) c a))
  | .ok s1 => match s1.fillSeg cs k e with
    | .ok s2 => .done (s2.putSeg cs k e)
    | .fail s2 c a => .failed (keep (s2.saveFail e.rank c a))
    | .stall s2 => .waits (move s2)

/-- Where a binding at the segments `lo` to `lo + n - 1` can go: the segment whose restore is under way; else the lowest FREE
one (log 84); else the one that it has claimed, and then the IDLE ones, those of the holder switched out longest ago first (R157). A
segment that another claims is MOVING, and no victim (R160). -/
def State.victims (s : State) (cs : Bool) (lo n : Nat) (e : SegRec) : List (Nat × Option SegRec) :=
  let here := (s.segs cs).filter fun x => lo ≤ x.1 && x.1 < lo + n
  match here.find? fun x => x.2.state = .restoring && x.2.same e with
  | some x => [(x.1, none)]
  | none => match (natRange lo n).find? fun k => (tabGet (s.segs cs) k).isNone with
    | some k => [(k, none)]
    | none =>
      let order := fun (st : SegState) => sortBy (fun (x : Nat × SegRec) => s.holderLeft cs x.2) (here.filter fun x => x.2.state = st)
      (order e.claim ++ order .idle).map fun x => (x.1, some x.2)

/-- The claimant takes one victim after another, and waits when none is left (R160). -/
def State.bindFrom (s : State) (cs : Bool) (e : SegRec) : List (Nat × Option SegRec) → Placed
  | [] => .waits s
  | (k, v) :: rest => match s.bindAt cs e k v with
    | .failed s1 => s1.bindFrom cs e rest
    | o => o

/-- The holder's segments that are still IDLE at a former place are saved first (R158). -/
def State.recall (s : State) (cs : Bool) (e : SegRec) : Placed :=
  match (s.segs cs).find? fun x => x.2.same e && (x.2.state = .idle || x.2.state.saves) with
  | none => .done s
  | some (k, x) => s.evict cs k x

/-- `bind` of R157 for a holder's logical segment. -/
def State.bindSeg (s : State) (cs : Bool) (lo n : Nat) (e : SegRec) : Placed :=
  match s.recall cs e with
  | .done s1 => s1.bindFrom cs e (s1.victims cs lo n e)
  | o => o

/-- Carries through what a holder that is about to leave its place has begun at the segments of a list: a claimed one is saved and FREE
then, and one that is to be restored has its contents (R160). It waits while the page of a frame is held. -/
def State.settleSegs (s : State) (cs : Bool) (rank holder : Nat) : List (Nat × SegRec) → Try State
  | [] => .ok s
  | (k, x) :: rest => match x.state with
    | .saving r h _ _ =>
      if r ≠ rank || h ≠ holder then s.settleSegs cs rank holder rest else
        match s.saveHolder cs k x with
        | .ok s1 => (s1.freeSeg cs k).settleSegs cs rank holder rest
        | .fail s1 c a => ((s1.saveFail x.rank c a).putSeg cs k { x with state := .idle }).settleSegs cs rank holder rest
        | .stall s1 => .error s1
    | .restoring =>
      if x.rank ≠ rank || x.holder ≠ holder then s.settleSegs cs rank holder rest else
        match s.fillSeg cs k x with
        | .ok s1 => (s1.putSeg cs k { x with state := .active }).settleSegs cs rank holder rest
        | .fail s1 c a => ((s1.saveFail x.rank c a).freeSeg cs k).settleSegs cs rank holder rest
        | .stall s1 => .error s1
    | _ => s.settleSegs cs rank holder rest

/-- The claims of a holder that is gone are given up (log 84). Those of other holders stand. -/
def State.unclaim (s : State) (cs : Bool) (rank holder : Nat) : State := s.setSegs cs (dropClaims rank holder (s.segs cs))

/-- A holder has claimed a segment for a logical segment, or its contents are still to come (R160). -/
def State.claimed (s : State) (cs : Bool) (e : SegRec) : Bool :=
  (s.segs cs).any fun x => x.2.state = e.claim || (x.2.state = .restoring && x.2.same e)

/-! ### Counters of commands that stop -/

/-- Changes the arrival counter of a command that faults or is abandoned, wherever the holder's segment is: bound, IDLE at some
place, or in its save frame (R148, R158, R265). A frame that is not mapped leaves nothing to change; it waits while the frame's
page is held. -/
def State.counterHome (s : State) (m : Strand) (c : Client) (va : Word) (f : Arrival → Arrival) : Try State :=
  match s.counterUpd c va f with
  | .ok s1 => .ok s1
  | .fault _ => .ok s
  | .stall _ => match s.gang? m.gang with
    | none => .ok s
    | some g =>
      let e : SegRec := ⟨m.rank, m.gang, fld va 51 0 / 65536, m.member / g.spc, .active⟩
      let change := fun (x : State) (a : Nat) => x.wr a 16 (f (arrivalOf (x.rd a 16))).toNat
      match s.lsSeg.find? fun x => x.2.same e && x.2.state ≠ .restoring with
      | some (k, _) => .ok (change s (segAddr false k + fld va 15 0))
      | none => match s.segFrame false e with
        | none => .ok s
        | some (r, frame, _) => match s.access (r.client m.rank) (frame + wd (fld va 15 0)) 16 true with
          | (s1, .ok t) => .ok (change s1 t.addr)
          | (s1, .fault _) => .ok s1
          | (s1, .stall _) => .error s1

end Sys2Proof.Machine
end

