-- ==== Sys2Proof/Machine/Copy.lean ====
section
/-! DEFINITION. The asynchronous copies and what all asynchronous commands share: issue, chunks and their arrival, a chunk's
fault, restart, and relocation (R91, R148 to R150, R227, R240, R241, R244, R358, R364 to R367). -/

namespace Sys2Proof.Machine

/-! ### Issue -/

/-- Checks the first and the last byte of each region in turn by orders 1 to 4 of R174 (R358). R358 gives no order among the ends; the
destination comes before the source and a first byte before a last one (log 103). -/
def State.endChecks (s : State) (c : Client) (l : List (Word × Nat)) : EndCheck :=
  l.findSome? fun e => (s.endCheck c e.1).or (s.endCheck c (e.1 + wd (e.2 - 1)))

/-- A command as it is issued. -/
def Cmd.new (m : Strand) (op : CmdOp) (t : Stream) (dst src counter : Word) (reloc : Bool) : Cmd :=
  { op := op, stream := t, dst := dst, src := src, counter := counter, reloc := reloc, core := locCore (m.place.getD 0), order := 0
    next := 0, ahead := [], counted := [], state := .running, head := none, pos := none, members := [], begun := true
    left := 0, tree := [], pieces := [], dmap := m.dmap }

/-- Issues a command after its checks (R358): it waits for the stream's earlier writes (R205) and for a slot, counts into
PENDING, and the word retires; `after` is what else the issue does. -/
def State.issue (s : State) (u : Nat) (m : Strand) (t : Stream) (c : Client) (k : Cmd) (after : State → State) : State :=
  if !m.streamQuiet t then s else
    match s.freeSlot m with
    | none => s
    | some slot => match s.counterUpd c k.counter Arrival.issue with
      | .fault e => s.raise u t e k.counter 0
      | .stall w => s.waitFor u t w
      | .ok s1 =>
        (after { s1.upd u fun n => { n with cmds := tabPut n.cmds slot { k with order := s1.ids } } with
          ids := s1.ids + 1 }).done u t

/-- A row of one region meets a row of the other (R367): `h` rows of `w` bytes at pitches `sp` and `dp`. -/
def rowsMeet (src dst w h sp dp : Nat) : Bool :=
  (List.range h).any fun i =>
    let a := src + i * sp
    let j := if dst ≥ a + w || dp = 0 then 0 else min (h - 1) ((a + w - 1 - dst) / dp)
    overlaps a w (dst + j * dp) w

/-- CPY (R365). Where dst and src fail the same check, FADDR names dst (log 103). -/
def execCpy (st : Bool) (p q r : Field) (x : Bool) (s : State) : Host.Outcome State Fault Refusal :=
  let t : Stream := if st then .s else .l
  onWord s t false false fun u m =>
    match s.clientOf m with
    | none => s
    | some c =>
      let d := m.reg r
      let len := fld d 31 0
      let ac := lsVa (fld d 52 32)
      let dst := m.reg p
      let src := m.reg q
      match firstCheck [check (len = 0 || len % 16 ≠ 0 || fld d 63 53 ≠ 0) cILLEGAL 0, s.counterCheck m.gang ac,
          check (dst.toNat % 16 ≠ 0) cALIGN dst, check (src.toNat % 16 ≠ 0) cALIGN src,
          check (overlaps dst.toNat len src.toNat len) cILLEGAL 0] with
      | some (e, a) => s.raise u t e a 0
      | none => match s.endChecks c [(dst, len), (src, len)] with
        | some (.ok (e, a)) => s.raise u t e a 0
        | some (.error x) => x
        | none => s.issue u m t c (Cmd.new m (.cpy len) t dst src ac x) id

/-- CPYT (R366, R367). Where dst and src fail the same check, FADDR names dst (log 103). -/
def execCpyt (st : Bool) (p q r : Field) (x : Bool) (s : State) : Host.Outcome State Fault Refusal :=
  let t : Stream := if st then .s else .l
  onWord s t false false fun u m =>
    match s.clientOf m with
    | none => s
    | some c =>
      let d := m.reg r
      let e := m.reg (r + 1)
      let w := fld d 15 0
      let h := fld d 31 16
      let sp := fld e 31 0
      let dp := fld e 63 32
      let ac := lsVa (fld d 52 32)
      let dst := m.reg p
      let src := m.reg q
      let bad := w = 0 || w % 16 ≠ 0 || h = 0 || fld d 63 53 ≠ 0 || sp % 16 ≠ 0 || sp < w || dp % 16 ≠ 0 || dp < w
      match firstCheck [check bad cILLEGAL 0, s.counterCheck m.gang ac,
          check (dst.toNat % 16 ≠ 0) cALIGN dst, check (src.toNat % 16 ≠ 0) cALIGN src] with
      | some (k, a) => s.raise u t k a 0
      | none =>
        if rowsMeet src.toNat dst.toNat w h sp dp then s.raise u t cILLEGAL 0 0
        else match s.endChecks c [(dst, (h - 1) * dp + w), (src, (h - 1) * sp + w)] with
          | some (.ok (k, a)) => s.raise u t k a 0
          | some (.error x) => x
          | none => s.issue u m t c (Cmd.new m (.cpyt w h sp dp) t dst src ac x) id

/-! ### Chunks -/

/-- Bytes of the destination (R240, R264, R365, R367). -/
def Cmd.bytes (k : Cmd) : Nat :=
  match k.op, k.head with
  | .cpy len, _ => len
  | .cpyt w h _ _, _ => w * h
  | .car, some a => 4 * a.count
  | .crs, some a =>
    let p := k.pos.getD 0
    4 * ((p + 1) * a.count / a.members - p * a.count / a.members)
  | .cag, some a => a.members * a.count
  | .cbc, some a => a.count
  | _, none => 0

/-- Number of chunks. -/
def Cmd.chunks (k : Cmd) : Nat := ceilDiv k.bytes 4096

/-- Bytes of chunk `i`. -/
def Cmd.chunkBytes (k : Cmd) (i : Nat) : Nat := min 4096 (k.bytes - 4096 * i)

/-- A piece of a chunk: source, destination, bytes. -/
structure Piece where
  src : Nat
  dst : Nat
  bytes : Nat
  deriving DecidableEq, Repr

/-- Cuts a run of bytes where either side crosses a 4 KiB boundary. -/
def cutBoth (src dst len : Nat) : Nat → List Piece
  | 0 => []
  | fuel + 1 =>
    if len = 0 then [] else
      let n := min len (min (4096 - src % 4096) (4096 - dst % 4096))
      ⟨src % 2 ^ 64, dst % 2 ^ 64, n⟩ :: cutBoth (src + n) (dst + n) (len - n) fuel

/-- The rows of a chunk of CPYT: `b` is the first destination byte in row order (R367). -/
def rowPieces2 (src dst w sp dp b len : Nat) : Nat → List Piece
  | 0 => []
  | fuel + 1 =>
    if len = 0 || w = 0 then [] else
      let i := b / w
      let o := b % w
      let n := min len (w - o)
      cutBoth (src + i * sp + o) (dst + i * dp + o) n (n / 4096 + 3) ++ rowPieces2 src dst w sp dp (b + n) (len - n) fuel

/-- The pieces of chunk `i` of a copy. -/
def Cmd.pieceList (k : Cmd) (i : Nat) : List Piece :=
  let n := k.chunkBytes i
  match k.op with
  | .cpyt w _ sp dp => rowPieces2 k.src.toNat k.dst.toNat w sp dp (4096 * i) n 260
  | _ => cutBoth (k.src.toNat + 4096 * i) (k.dst.toNat + 4096 * i) n 4

/-- The first byte of chunk `i` on the destination side or the source side. -/
def Cmd.chunkAddr (k : Cmd) (i : Nat) (dst : Bool) : Word :=
  match (k.pieceList i).head? with
  | some p => wd (if dst then p.dst else p.src)
  | none => k.dst

/-- The source bytes of the pieces, in order. -/
def State.readPieces (s : State) (c : Client) : List Piece → State × Res (List Nat)
  | [] => (s, .ok [])
  | p :: r => match s.access c (wd p.src) 1 false with
    | (s1, .fault e) => (s1, .fault e)
    | (s1, .stall w) => (s1, .stall w)
    | (s1, .ok t) => match s1.readPieces c r with
      | (s2, .ok l) => (s2, .ok (s1.rd t.addr p.bytes :: l))
      | (s2, e) => (s2, e)

/-- The final bytes of a collective from word `w` on, `n` words, if its endpoint has them all. -/
def Cmd.final (k : Cmd) (w : Nat) : Nat → Option (List (BitVec 32))
  | 0 => some []
  | n + 1 => match (k.pieces.find? fun p => p.first ≤ w && w < p.first + p.words.length) with
    | none => none
    | some p => match k.final (w + 1) n with
      | none => none
      | some l => some (p.words.getD (w - p.first) 0 :: l)

/-- What a chunk comes to: its bytes as parts of memory with values, a failure with its side, or nothing yet. -/
inductive ChunkRes where
  | ok (l : List (Part × Nat))
  | fault (cause : BitVec 8) (dst : Bool)
  | notYet
  deriving DecidableEq, Repr

/-- Pairs the pieces' destinations with their values. -/
def State.dstPieces (s : State) (c : Client) : List (Nat × Nat × Nat) → State × ChunkRes
  | [] => (s, .ok [])
  | (va, n, v) :: r => match s.access c (wd va) 1 true with
    | (s1, .fault e) => (s1, .fault e true)
    | (s1, .stall _) => (s1, .notYet)
    | (s1, .ok t) => match s1.dstPieces c r with
      | (s2, .ok l) => (s2, .ok ((⟨t.addr, n, t.local_⟩, v) :: l))
      | (s2, e) => (s2, e)

/-- Chunk `i` of a command: a copy reads its source and then checks its destination; a collective's chunk has its final
values from the endpoint (R264). -/
def State.chunk (s : State) (c : Client) (k : Cmd) (i : Nat) : State × ChunkRes :=
  match k.head with
  | some _ =>
    match k.final (1024 * i) (k.chunkBytes i / 4) with
    | none => (s, .notYet)
    | some l =>
      let v := packNat 32 (l.map BitVec.toNat)
      let at_ := k.dst + wd (4096 * i)
      s.dstPieces c ((cut at_ (k.chunkBytes i)).map fun p => (p.1, p.2, v / 2 ^ (8 * (p.1 - at_.toNat)) % 2 ^ (8 * p.2)))
  | none =>
    let ps := k.pieceList i
    match s.readPieces c ps with
    | (s1, .fault e) => (s1, .fault e false)
    | (s1, .stall _) => (s1, .notYet)
    | (s1, .ok vs) => s1.dstPieces c ((ps.zip vs).map fun p => (p.1.dst, p.1.bytes, p.2))

/-- A stopped command of a strand that runs starts as soon as its core has room for it (R3, R91). -/
def State.startCmd (s : State) (m : Strand) (core : Nat) (k : Cmd) : Cmd :=
  if k.state = .stopped && m.state ≠ .faulted && s.cmdRoom core ≠ 0 then k.resume core else k

/-- A command of a strand as its core finds it: the strand, who accesses memory for it, which is the strand with the die map of
the command's word (R205, R370), and the command, started if it can be. -/
def State.cmdAt (s : State) (u : Nat) (k : Cmd) : Option (Strand × Client × Cmd) :=
  match s.strand u with
  | none => none
  | some m => (s.clientOf m).map fun c => (m, { c with dmap := k.dmap }, s.startCmd m (locCore (m.place.getD 0)) k)

/-- A running command of a resident strand; its accesses use the die map of its word (R205, R370). -/
def State.runningCmd (s : State) (loc : Loc) (slot : BitVec 6) : Option (Nat × Strand × Client × Cmd) :=
  match s.onBank loc.toNat with
  | none => none
  | some (u, m) => match tabGet m.cmds slot.toNat, s.clientOf m with
    | some k0, some c =>
      let k := s.startCmd m (locCore loc.toNat) k0
      if k.state = .running then some (u, m, { c with dmap := k.dmap }, k) else none
    | _, _ => none

/-- The chunk at the head has completed: the next chunk passes every chunk that is complete already. -/
def Cmd.advance (k : Cmd) : Nat → Cmd
  | 0 => k
  | fuel + 1 =>
    if k.ahead.contains k.next then { k with next := k.next + 1, ahead := k.ahead.filter (· ≠ k.next) }.advance fuel else k

/-- The command with chunk `i` complete; the chunks counted stay known until the next chunk has passed them. -/
def Cmd.withChunk (k : Cmd) (i : Nat) : Cmd :=
  let k1 : Cmd := Cmd.advance { k with ahead := natIns k.ahead i } 17
  { k1 with counted := (natIns k.counted i).filter fun j => k1.next ≤ j }

/-- The command has completed with its chunks and, for a collective, with the messages of its endpoint (R150, R264). -/
def Cmd.complete (k : Cmd) : Bool := k.next = k.chunks && k.begun && k.left = 0

/-- A chunk arrives (R148, R365, R264): its bytes are written as an engine writes, they are counted once, and the last
one finishes the command. -/
def State.arrive (s : State) (u slot : Nat) (c : Client) (k : Cmd) (i : Nat) (l : List (Part × Nat)) : State :=
  let k1 := k.withChunk i
  let n := if k.counted.contains i then 0 else k.chunkBytes i
  let f := fun (a : Arrival) =>
    let b := a.arrive n (n + 1)
    if k1.complete then b.finish else b
  match s.counterUpd c k.counter f with
  | .ok s1 =>
    let s2 := l.foldl (fun (acc : State) p => acc.engineWrite p.1.addr p.1.bytes p.2) s1
    s2.upd u fun m => { m with cmds := if k1.complete then tabDel m.cmds slot else tabPut m.cmds slot k1 }
  | _ => s

/-- CHUNK_ARRIVE (R148, R264, R365): the chunk `ahead` places above the next one, of up to 16 in flight. A collective's
last chunk, or one without bytes, waits for its endpoint's part. -/
def execChunkArrive (loc : Loc) (slot : BitVec 6) (ahead : BitVec 4) (s : State) : Host.Outcome State Fault Refusal :=
  .next (match s.runningCmd loc slot with
    | none => s
    | some (u, _, c, k) =>
      let i := k.next + ahead.toNat
      if !k.begun then s
      else if k.chunks = 0 then
        if !k.complete then s else
          match s.counterUpd c k.counter Arrival.finish with
          | .ok s1 => s1.upd u fun m => { m with cmds := tabDel m.cmds slot.toNat }
          | _ => s
      else if i ≥ k.chunks || k.ahead.contains i then s
      else if (k.withChunk i).next = k.chunks && k.left ≠ 0 then s
      else match s.chunk c k i with
        | (s1, .ok l) => s1.arrive u slot.toNat c k i l
        | (s1, _) => s1)

/-! ### A chunk's fault -/

/-- The ahead-mask (R240, R244). -/
def Cmd.aheadMask (k : Cmd) : Nat :=
  k.ahead.foldl (fun acc i => acc + if k.next < i && i ≤ k.next + 16 then 2 ^ (i - k.next - 1) else 0) 0

/-- A chunk of a command fails (R148, R241): the counter records it, wherever its segment is, the command stops at its next
chunk, and the strand stops with ASYNC. It waits while the page of the counter's save frame is held. -/
def State.cmdFault (s : State) (u slot : Nat) (c : Client) (k : Cmd) (cause : BitVec 8) (dst : Bool) (addr : Word) : Try State :=
  match s.strand u with
  | none => .ok s
  | some n => (s.counterHome n c k.counter fun a => a.fault cause.toNat slot).map fun s1 =>
    (s1.upd u fun m => Strand.note { m with cmds := tabPut m.cmds slot { k with state := .faulted } }
      { sync := false, pos := 0, pc := 0, slot := slot, stream := k.stream, cause := cASYNC, addr := addr
        prog := fprog 1 (k.next + k.aheadMask * 2 ^ 32 + cause.toNat * 2 ^ 48 + b2n dst * 2 ^ 56) }).takeFault u

/-- The 16-byte units of a collective's chunk whose final words its endpoint has, the last one with what is left of the chunk: any of
their 8-byte words may have been written already (R215, R265). -/
def State.tearColl (s : State) (c : Client) (k : Cmd) (i : Nat) : State :=
  (List.range ((k.chunkBytes i + 15) / 16)).foldl (fun (acc : State) j =>
    let n := min 16 (k.chunkBytes i - 16 * j)
    match k.final (1024 * i + 4 * j) (n / 4) with
    | none => acc
    | some l => match acc.access c (k.dst + wd (4096 * i + 16 * j)) 1 true with
      | (s1, .ok t) => s1.tear t.addr n (packNat 32 (l.map BitVec.toNat))
      | _ => acc) s

/-- The chunks in flight that will not complete leave any mix of old and new words (R215, R244). -/
def State.tearChunk (s : State) (c : Client) (k : Cmd) (i : Nat) : State :=
  if i ≥ k.chunks || k.ahead.contains i then s
  else if k.head.isSome then s.tearColl c k i
  else
    (k.pieceList i).foldl (fun (acc : State) p =>
      match acc.readPieces c [p] with
      | (s1, .ok [v]) => match s1.dstPieces c [(p.dst, p.bytes, v)] with
        | (s2, .ok [x]) => s2.tear x.1.addr x.1.bytes x.2
        | (s2, _) => s2
      | (s1, _) => s1) s

/-- A command's fault at its next chunk: the chunks in flight may be torn. -/
def State.chunkFails (s : State) (u slot : Nat) (c : Client) (k : Cmd) (cause : BitVec 8) (dst : Bool) : Try State :=
  let s1 := (natRange k.next 16).foldl (fun (acc : State) i => acc.tearChunk c k i) s
  s1.cmdFault u slot c k cause dst (if k.head.isSome then k.dst + wd (4096 * k.next) else k.chunkAddr k.next dst)

/-! ### Restart and relocation -/

/-- An operand in LS (R139). -/
def inLs (va : Word) : Bool := fld va 56 52 = 31 && fld va 51 0 < 0x1000000

/-- A command that has not begun. -/
def Cmd.untouched (k : Cmd) : Bool := k.next = 0 && k.ahead.isEmpty && k.counted.isEmpty && k.state == .running

/-- The commands that a core's engine of a stream serves or queues (R227). -/
def State.engineQueue (s : State) (core : Nat) (t : Stream) : List Cmd :=
  s.strands.flatMap fun e => (e.2.cmds.map (·.2)).filter fun k => k.core = core && k.stream = t && k.state == .running

/-- The engine of a core that serves a stream is idle, and nothing queues for it (R227). -/
def State.engineIdle (s : State) (core : Nat) (t : Stream) : Bool :=
  (s.engineQueue core t).isEmpty && !(t = .l && s.strands.any fun e => e.2.taker = some core)

/-- The operands of a relocatable GRED at which the L stream stands and that has not begun (R227, R383). -/
def State.gredHere (_s : State) (m : Strand) : Option (List Word) :=
  if !m.canIssue || m.l.wait ≠ .none || m.taker.isSome || m.partDone m.l.pos then none else
    match (m.wordAt m.l.pos).bind fun w => decode w.bits with
    | some (.gred p q r x l f o) =>
      if x && !m.hazard .l (.gred p q r x l f o) then some [m.reg p, m.reg q, m.reg r] else none
    | _ => none

/-- A CPY or a CPYT. -/
def Cmd.copies (k : Cmd) : Bool := match k.op with
  | .cpy _ => true
  | .cpyt _ _ _ _ => true
  | _ => false

/-- COMMAND_RELOCATE (R227): a sibling whose engine is idle takes the head of a core's queue, if it is relocatable. A slot
number from 48 on stands for the GRED at which the strand's L stream stands, which has no slot (log 79). -/
def execCommandRelocate (loc : Loc) (slot : BitVec 6) (core : BitVec 3) (s : State) : Host.Outcome State Fault Refusal :=
  let dest := coreOf (locCluster loc.toNat) core.toNat
  .next (if slot.toNat ≥ 48 then
    match s.onBank loc.toNat with
    | none => s
    | some (u, m) => match s.gredHere m with
      | none => s
      | some l =>
        let own := locCore loc.toNat
        if l.any inLs || dest = own || !((s.engineQueue own .l).filter Cmd.untouched).isEmpty || !s.engineIdle dest .l then s
        else s.setStrand u { m with taker := some dest }
  else match s.runningCmd loc slot with
    | none => s
    | some (u, _, _, k) =>
      let waiting := (s.engineQueue k.core k.stream).filter Cmd.untouched
      if !k.copies || !k.reloc || inLs k.dst || inLs k.src || dest = k.core || !k.untouched ||
          !(waiting.all fun j => k.order ≤ j.order) || !s.engineIdle dest k.stream then s
      else s.upd u fun m => { m with cmds := tabPut m.cmds slot.toNat { k with core := dest } })

end Sys2Proof.Machine
end

