-- ==== Sys2Proof/Machine/Collective.lean ====
section
/-! DEFINITION. The collectives CAR, CRS, CAG and CBC: communicators (R259), issue (R355 to R361, R368), the endpoints'
messages (R260 to R264, R266, R495), aborts (R265), and the fault of a command's chunk. -/

namespace Sys2Proof.Machine

/-! ### Communicators -/

/-- A communicator table entry that has never been written (R259). -/
def Comm.reset : Comm := { w0 := 0, w1 := 0, w2 := 0, ovf := 0, seq := 0 }

def Rank.comm (r : Rank) (i : Nat) : Comm := tabAt r.comms Comm.reset i

def Comm.members (c : Comm) : Nat := fld c.w0 15 0 + 1
def Comm.valid (c : Comm) : Bool := bit c.w0 16
def Comm.thr (c : Comm) : Nat := fld c.w0 51 20

/-- What an endpoint finds in its communicator's member list (R259, R260): its position and the list, or the chunk cause
with which the command faults at chunk 0; or the read stalls. -/
inductive Roster where
  | ok (pos : Nat) (list : List Nat)
  | bad (cause : BitVec 8)
  | stall
  deriving DecidableEq, Repr

/-- The member list, empty where there is none. -/
def Roster.members : Roster → List Nat
  | .ok _ l => l
  | _ => []

/-- The `n` 16-bit entries of a member list. -/
def State.readRoster (s : State) (c : Client) (va : Word) : Nat → State × Res (List Nat)
  | 0 => (s, .ok [])
  | n + 1 => match s.readVa c va 2 with
    | (s1, .fault e) => (s1, .fault e)
    | (s1, .stall w) => (s1, .stall w)
    | (s1, .ok v) => match s1.readRoster c (va + 2) n with
      | (s2, .ok l) => (s2, .ok (v :: l))
      | (s2, r) => (s2, r)

/-- Numbers in strictly ascending order. -/
def ascending : List Nat → Bool
  | a :: b :: r => a < b && ascending (b :: r)
  | _ => true

/-- The roster of a rank's communicator (R260). -/
def State.roster (s : State) (r : Rank) (key comm : Nat) : State × Roster :=
  let e := r.comm comm
  if !e.valid then (s, .bad cILLEGAL) else
    match s.readRoster (r.client key) e.w1 e.members with
    | (s1, .fault k) => (s1, .bad k)
    | (s1, .stall _) => (s1, .stall)
    | (s1, .ok l) =>
      if !ascending l || l.any (fun v => v > r.nrankm1.toNat) then (s1, .bad cILLEGAL) else
        match l.findIdx? (· = r.vrank.toNat) with
        | none => (s1, .bad cILLEGAL)
        | some p => (s1, .ok p l)

/-! ### Issue -/

/-- The elements of ring chunk `c` (R261): first and count. -/
def ringChunk (h : CollHead) (c : Nat) : Nat × Nat :=
  let a := c * h.count / h.members
  (a, (c + 1) * h.count / h.members - a)

/-- The header that a member's messages carry (R260). -/
def collHead (e : Comm) (comm op : Nat) (reduction : Bool) (d0 d1 : Word) : CollHead :=
  { comm := comm, seq := e.seq, op := BitVec.ofNat 4 (op + 4 * fld d0 7 6), fmt := bit d0 8, count := fld d1 31 0
    root := fld d0 25 10, members := e.members, ring := reduction && e.thr ≤ fld d1 31 0, wire := bit e.w0 17
    ieee := bit e.w0 18 }

/-- The value check of a descriptor (R357, R358 order 1). -/
def collDescBad (op : CmdOp) (e : Comm) (d0 d1 : Word) : Bool :=
  bit d0 9 || fld d0 63 47 ≠ 0 || fld d1 63 32 ≠ 0 || match op with
  | .cag => fld d0 8 6 ≠ 0 || fld d0 25 10 ≠ 0 || fld d1 31 0 = 0 || fld d1 31 0 % 16 ≠ 0
  | .cbc => fld d0 8 6 ≠ 0 || fld d1 31 0 = 0 || fld d1 31 0 % 16 ≠ 0 || (e.valid && fld d0 25 10 ≥ e.members)
  | _ => fld d0 7 6 = 3 || (bit d0 8 && fld d0 7 6 ≠ 0) || fld d0 25 10 ≠ 0 || fld d1 31 0 = 0

/-- The collectives' operation numbers in a header. -/
def collOp : CmdOp → Nat
  | .car => 0
  | .crs => 1
  | .cag => 2
  | _ => 3

/-- The regions of a collective, destination and then source (R355, R357 to R361, R368), and whether they overlap in a
form that is not an in-place form. Where the position is not known, CRS has the destination of position 0, and where the entry is
not valid, CAG has the number of members that the entry names (log 65). -/
def collRegions (k : Cmd) (h : CollHead) : List (Word × Nat) × Bool :=
  let dlen := k.bytes
  let slen := match k.op with
    | .cag => h.count
    | .cbc => if k.pos = some h.root then h.count else 0
    | _ => 4 * h.count
  let inPlace := match k.op with
    | .car => k.dst = k.src
    | .cbc => k.dst = k.src
    | .cag => match k.pos with
      | some p => k.src = k.dst + wd (p * h.count)
      | none => true
    | _ => false
  ([(k.dst, dlen), (k.src, slen)].filter fun e => e.2 ≠ 0,
   !inPlace && overlaps k.dst.toNat dlen k.src.toNat slen)

/-- CAR, CRS, CAG and CBC (R357, R358). Where dst and src fail the same check, FADDR names dst (log 103). -/
def collWord (op : CmdOp) (p q r : Field) (s : State) : Host.Outcome State Fault Refusal :=
  onWord s .s false false fun u m =>
    match s.clientOf m, s.rank? m.rank with
    | some c, some rk =>
      let d0 := m.reg r
      let d1 := m.reg (r + 1)
      let comm := fld d0 5 0
      let e := rk.comm comm
      let ac := lsVa (fld d0 46 26)
      let dst := m.reg p
      let src := m.reg q
      let reduction := op == .car || op == .crs
      let head := collHead e comm (collOp op) reduction d0 d1
      match s.roster rk m.rank comm with
      | (s1, .stall) => s1
      | (s1, roster) =>
        let pos := match roster with
          | .ok i _ => some i
          | _ => none
        let k : Cmd := { Cmd.new m op .s dst src ac false with
          head := some head, pos := pos, begun := false }
        let (regions, overlap) := collRegions k head
        let reads := op ≠ .cbc || pos = some head.root
        match firstCheck [check (collDescBad op e d0 d1) cILLEGAL 0, s1.counterCheck m.gang ac,
            check (dst.toNat % 16 ≠ 0) cALIGN dst, check (reads && src.toNat % 16 ≠ 0) cALIGN src,
            check overlap cILLEGAL 0] with
        | some (x, a) => s1.raise u .s x a 0
        | none => match s1.endChecks c regions with
          | some (.ok (x, a)) => s1.raise u .s x a 0
          | some (.error x) => x
          | none => s1.issue u m .s c k fun z =>
            ((z.updRank m.rank fun v => { v with comms := tabPut v.comms comm { v.comm comm with seq := e.seq + 1 } }).upd u
              fun n => { n with colls := n.colls ++ [⟨comm, e.seq, roster.members⟩] }).send rk.home rk.home (64 * z.ids)
              (.coll { from_ := m.rank, dest := m.rank, head := head, phase := .start, words := [] })
    | _, _ => s

/-- CAR (R359). -/
def execCar (p q r : Field) (_x : Bool) (s : State) : Host.Outcome State Fault Refusal := collWord .car p q r s

/-- CRS (R368). -/
def execCrs (p q r : Field) (_x : Bool) (s : State) : Host.Outcome State Fault Refusal := collWord .crs p q r s

/-- CAG (R355). -/
def execCag (p q r : Field) (_x : Bool) (s : State) : Host.Outcome State Fault Refusal := collWord .cag p q r s

/-- CBC (R361). -/
def execCbc (p q r : Field) (_x : Bool) (s : State) : Host.Outcome State Fault Refusal := collWord .cbc p q r s

/-! ### Arithmetic of a hop (R261 to R263, R495) -/

/-- A 32-bit word rounded to the wire format, in the form that the receiver widens it to, and whether it saturated. -/
def wireWord (h : CollHead) (w : BitVec 32) : BitVec 32 × Nat :=
  if h.fmt then (w, 0)
  else
    let v := dec32 w.toNat
    if h.wire then
      let r := fBF16.rnd .rne h.ieee 0 v
      (BitVec.ofNat 32 (r.bits * 65536), b2n r.ovf)
    else
      let r := fFP32.rnd .rne h.ieee 0 v
      (BitVec.ofNat 32 r.bits, b2n r.ovf)

/-- A received value and a local one reduced (R261, R263), and whether the result saturated. -/
def reduceWord (h : CollHead) (a b : BitVec 32) : BitVec 32 × Nat :=
  if h.fmt then (a + b, 0)
  else
    let x := dec32 a.toNat
    let y := dec32 b.toNat
    let v := match h.op.toNat / 4 with
      | 0 => Val.add false x y
      | 1 => Val.minV x y
      | _ => Val.maxV x y
    let r := fFP32.rnd .rne h.ieee 0 v
    (BitVec.ofNat 32 r.bits, b2n r.ovf)

/-- Words with the count of their saturated results. -/
def mapCount (l : List (BitVec 32 × Nat)) : List (BitVec 32) × Nat := (l.map (·.1), l.foldl (fun n e => n + e.2) 0)

def wireAll (h : CollHead) (l : List (BitVec 32)) : List (BitVec 32) × Nat := mapCount (l.map (wireWord h))

def reduceAll (h : CollHead) (a b : List (BitVec 32)) : List (BitVec 32) × Nat :=
  mapCount ((a.zip b).map fun e => reduceWord h e.1 e.2)

/-- Counts saturated results in the member's own entry, which stops at 0xFFFF (R259, R495). -/
def State.countOvf (s : State) (key comm n : Nat) : State :=
  if n = 0 then s else s.updRank key fun v =>
    let e := v.comm comm
    { v with comms := tabPut v.comms comm { e with ovf := BitVec.ofNat 16 (min 0xFFFF (e.ovf.toNat + n)) } }

/-! ### Sending -/

/-- The command of a rank for a collective: strand, slot and command. -/
def State.collCmd (s : State) (key comm : Nat) (seq : BitVec 32) : Option (Nat × Nat × Cmd) :=
  s.strands.findSome? fun e =>
    if e.2.rank ≠ key then none else
      e.2.cmds.findSome? fun k => match k.2.head with
        | some h => if h.comm = comm && h.seq = seq then some (e.1, k.1, k.2) else none
        | none => none

/-- The staging area of a rank's communicator (R266, R267): the sender of a hop to a rank at its own home die writes the hop's
value there, word after word from STOFF on and round again at the end of the STLEN units (log 81). -/
def State.stage (s : State) (r : Rank) (comm : Nat) (words : List (BitVec 32)) : State :=
  let e := r.comm comm
  let size := fld (e.w2.setWidth 64) 47 32 * 65536
  if size = 0 then s else
    (words.zipIdx).foldl (fun (acc : State) x =>
      let off := fld (e.w2.setWidth 64) 31 0 + 4 * x.2 % size
      match r.ds[off / 65536]? with
      | none => acc
      | some k => acc.wr (dsAddr r.home.toNat k (off % 65536)) 4 x.1.toNat) s

/-- The messages of a hop are sent, each to a position of the member list through the sender's endpoint table (R258);
none if an entry is not valid. It waits while a page of the table is held. -/
def State.collSends (s : State) (r : Rank) (key : Nat) (k : Cmd) (h : CollHead) :
    List (Nat × CollPhase × List (BitVec 32)) → Try (Option State)
  | [] => .ok (some s)
  | (dest, phase, words) :: rest =>
    let v := k.members.getD dest 0
    match s.endpointEntry (r.client key) v with
    | (_, .fault _) => .ok none
    | (s1, .stall _) => .error s1
    | (s1, .ok e) =>
      let msg : CollMsg := { from_ := key, dest := rankKey r.job (BitVec.ofNat 16 v), head := h, phase := phase, words := words }
      let s2 := if BitVec.setWidth 12 e = r.home then s1.stage r h.comm words else s1
      (s2.send r.home (BitVec.setWidth 12 e) (64 * s2.ids) (.coll msg)).collSends r key k h rest

/-- A hop that fails on the fabric stops the command of the member that sent it; the message goes again once the command
runs again (R264). -/
def State.hopFails (s : State) (q : Msg) (m : CollMsg) : State :=
  let s1 := s.setMsg { q with dst := q.src, at_ := pkgOf q.src, hops := 0, arrived := true, age := 0, body := .resend m }
  match (s1.collCmd m.from_ m.head.comm m.head.seq).bind fun e => (s1.cmdAt e.1 e.2.2).map fun x => (e.1, e.2.1, x.2) with
  | none => s1
  | some (u, slot, c, k) => if k.state ≠ .running then s1 else
    s.attempt (s1.cmdFault u slot c k cPEER_UNREACHABLE true (k.dst + wd (4096 * k.next)))

/-! ### An endpoint's part -/

/-- What a message makes an endpoint do: its command changed, the saturated results, the messages sent on. -/
structure CollAct where
  cmd : Cmd
  ovf : Nat
  sends : List (Nat × CollPhase × List (BitVec 32))
  deriving DecidableEq, Repr

/-- Final words put into the command's destination. -/
def Cmd.put (k : Cmd) (first : Nat) (words : List (BitVec 32)) : Cmd := { k with pieces := k.pieces ++ [⟨first, words⟩] }

/-- One message taken. -/
def Cmd.took (k : Cmd) : Cmd := { k with left := k.left - 1 }

/-- The round in which a position sends upwards (R262): the number of its trailing zero bits. -/
def sendRound (p : Nat) : Nat → Nat
  | 0 => 0
  | fuel + 1 => if p % 2 = 1 then 0 else 1 + sendRound (p / 2) fuel

/-- The rounds in which a position receives (R262). -/
def recvRounds (p n : Nat) : List Nat :=
  (List.range 17).filter fun d => p + 2 ^ d < n && (p = 0 || d < sendRound p 17)

/-- Messages that a position has to take in all. -/
def collMessages (op : CmdOp) (h : CollHead) (p : Nat) : Nat :=
  match op with
  | .car => if h.ring then 2 * (h.members - 1) else (recvRounds p h.members).length + if p = 0 then 0 else 1
  | .crs => if h.ring then h.members - 1 else (recvRounds p h.members).length + if p = 0 then 0 else 1
  | .cag => h.members - 1
  | _ => if p = h.root then 0 else 1

/-- Position 0 has the result of a tree, or a position has it from above (R262). -/
def treeDown (k : Cmd) (h : CollHead) (p : Nat) (l : List (BitVec 32)) : CollAct :=
  if k.op = .crs then
    if p = 0 then
      ⟨k.put 0 (l.take (ringChunk h 0).2), 0,
        (natRange 1 (h.members - 1)).map fun i => (i, .down, (l.drop (ringChunk h i).1).take (ringChunk h i).2)⟩
    else ⟨k.put 0 l, 0, []⟩
  else ⟨k.put 0 l, 0, (recvRounds p h.members).reverse.map fun d => (p + 2 ^ d, .down, l)⟩

/-- After the last partial from below, a position sends its own upwards, or has the result (R262). -/
def treeUp (k : Cmd) (h : CollHead) (p : Nat) (ovf : Nat) : CollAct :=
  if k.left > (if p = 0 then 0 else 1) then ⟨k, ovf, []⟩
  else if p = 0 then
    let a := treeDown k h 0 k.tree
    { a with ovf := a.ovf + ovf }
  else
    let d := sendRound p 17
    let (w, n) := wireAll h k.tree
    ⟨k, ovf + n, [(p - 2 ^ d, .up d, w)]⟩

/-- The source words that an endpoint needs for a message: first and count. -/
def collNeeds (k : Cmd) (h : CollHead) (p : Nat) : CollPhase → Nat × Nat
  | .start => match k.op with
    | .car => if h.ring then ringChunk h ((p + h.members - 1) % h.members) else (0, h.count)
    | .crs => if h.ring then ringChunk h ((p + h.members - 1) % h.members) else (0, h.count)
    | .cag => (0, h.count / 4)
    | _ => if p = h.root then (0, h.count / 4) else (0, 0)
  | .reduce c _ => ringChunk h c
  | _ => (0, 0)

/-- The endpoint begins (R261 to R263): `x` is its source. -/
def collBegin (k : Cmd) (h : CollHead) (p : Nat) (x : List (BitVec 32)) : CollAct :=
  let next := (p + 1) % h.members
  match k.op with
  | .cag => ⟨k.put (p * (h.count / 4)) x, 0, [(next, .bytes p 1, x)]⟩
  | .cbc => if p = h.root then ⟨k.put 0 x, 0, [(next, .bytes p 1, x)]⟩ else ⟨k, 0, []⟩
  | _ =>
    if h.ring then
      let (w, n) := wireAll h x
      ⟨k, n, [(next, .reduce ((p + h.members - 1) % h.members) 1, w)]⟩
    else treeUp { k with tree := x } h p 0

/-- What a message does at an endpoint that has begun; none while a partial of an earlier round is still to come. -/
def collTake (k : Cmd) (h : CollHead) (p : Nat) (x w : List (BitVec 32)) : CollPhase → Option CollAct
  | .start => none
  | .reduce c hop =>
    let (s, n) := reduceAll h w x
    let next := (p + 1) % h.members
    let k1 := k.took
    if p = c then
      some (if k.op = .crs then ⟨k1.put 0 s, n, []⟩
        else ⟨k1.put (ringChunk h c).1 s, n, [(next, .gather c 1, s)]⟩)
    else
      let (v, o) := wireAll h s
      some ⟨k1, n + o, [(next, .reduce c (hop + 1), v)]⟩
  | .gather c hop =>
    some ⟨k.took.put (ringChunk h c).1 w, 0,
      if hop + 1 < h.members then [((p + 1) % h.members, .gather c (hop + 1), w)] else []⟩
  | .up d =>
    if d + k.left ≠ collMessages k.op h p then none else
      let (s, n) := reduceAll h k.tree w
      some (treeUp { k.took with tree := s } h p n)
  | .down => some (treeDown k.took h p w)
  | .bytes i hop =>
    let at_ := if k.op = .cag then i * (h.count / 4) else 0
    some ⟨k.took.put at_ w, 0, if hop + 1 < h.members then [((p + 1) % h.members, .bytes i (hop + 1), w)] else []⟩

/-- The endpoint's act becomes the state: the messages leave, or the command faults because one cannot; the message that
caused it is done with. -/
def State.collApply (s : State) (q : Msg) (r : Rank) (key u slot : Nat) (c : Client) (k : Cmd) (h : CollHead)
    (a : CollAct) : State :=
  match s.collSends r key a.cmd h a.sends with
  | .error x => s.asksOf x
  | .ok none => s.attempt (s.cmdFault u slot c k cPEER_UNREACHABLE true (k.dst + wd (4096 * k.next)))
  | .ok (some s1) =>
    ((s1.upd u fun m => { m with cmds := tabPut m.cmds slot a.cmd }).countOvf key h.comm a.ovf).dropMsg q.id

/-- The source words of a message's part: read, or the command's fault, or nothing yet. -/
def State.collSource (s : State) (u slot : Nat) (c : Client) (k : Cmd) (need : Nat × Nat) :
    State × Option (List (BitVec 32)) :=
  if need.2 = 0 then (s, some []) else
    match s.checkRange c (k.src + wd (4 * need.1)) (4 * need.2) false with
    | (s1, .fault e a _) => (s1.attempt (s1.cmdFault u slot c k e false a), none)
    | (s1, .stall _) => (s1, none)
    | (s1, .ok parts) =>
      let v := s1.readParts parts
      (s1, some ((unpackNat 32 need.2 v).map (BitVec.ofNat 32)))

/-- A message of a collective at its member's endpoint (R260 to R264). -/
def State.collHandle (s : State) (q : Msg) (m : CollMsg) (r : Rank) : State :=
  match s.collCmd m.dest m.head.comm m.head.seq with
  | none => if (m.head.seq - (r.comm m.head.comm).seq).msb then s.dropMsg q.id else s
  | some (u, slot, k0) => match s.cmdAt u k0, k0.head with
    | some (n, c, k), some h =>
      if k.state ≠ .running || n.state = .faulted then s
      else if m.phase = .start then
        if k.begun then s.dropMsg q.id else
          match s.roster r m.dest h.comm with
          | (s1, .ok p l) =>
            let k1 : Cmd := { k with pos := some p, members := l, begun := true, left := collMessages k.op h p }
            match s1.collSource u slot c k (collNeeds k1 h p .start) with
            | (s2, none) => s2
            | (s2, some x) => s2.collApply q r m.dest u slot c k h (collBegin k1 h p x)
          | (s1, _) => s1
      else if !k.begun then s
      else if m.head ≠ h then s.attempt (s.cmdFault u slot c k cILLEGAL true (k.dst + wd (4096 * k.next)))
      else
        let p := k.pos.getD 0
        match s.collSource u slot c k (collNeeds k h p m.phase) with
        | (s1, none) => s1
        | (s1, some x) => match collTake k h p x m.words m.phase with
          | none => s1
          | some a => s1.collApply q r m.dest u slot c k h a
    | _, _ => s

/-- Where a message for a rank is handled: at the rank's home die, or forwarded by a former home, each until the rank's next
boundary (R269). -/
inductive Reached where
  | here (r : Rank)
  | onward (d : DieKey)
  | lost
  deriving DecidableEq, Repr

def State.reached (s : State) (d : DieKey) (key : Nat) : Reached :=
  match (s.die d).forwards.find? fun f => f.rank = key with
  | some f => if f.live then .onward f.dest else .lost
  | none => match s.rank? key with
    | some r => if r.home = d then .here r else .lost
    | none => .lost

/-- A message goes on to another die. -/
def State.passOn (s : State) (q : Msg) (d : DieKey) : State := s.setMsg (q.onward d q.route q.body)

/-- A message whose hop failed is sent again once its command runs again (R264). -/
def State.collAgain (s : State) (q : Msg) (m : CollMsg) : State :=
  let again := fun (x : State) => match x.rank? m.from_ with
    | none => x.dropMsg q.id
    | some r => match x.endpointEntry (r.client m.from_) (m.dest % 65536) with
      | (x1, .fault _) => x1.hopFails q m
      | (x1, .stall _) => x1
      | (x1, .ok e) => (x1.dropMsg q.id).send r.home (BitVec.setWidth 12 e) (64 * x1.ids) (.coll m)
  match s.collCmd m.from_ m.head.comm m.head.seq with
  | none => again s
  | some (u, _, k) => if (s.cmdAt u k).any fun e => e.2.2.state = .running then again s else s

/-- COLLECTIVE_MESSAGE (R260 to R264, R266, R269): a hop between co-resident members has left its value in the staging area
and gives the same bits. -/
def execCollectiveMessage (s : State) : Host.Outcome State Fault Refusal :=
  .next (match s.subjectMsg with
    | none => s
    | some q => match q.body with
      | .coll m => match s.reached q.dst m.dest with
        | .here r => s.collHandle q m r
        | .onward d => s.passOn q d
        | .lost => s.hopFails q m
      | .resend m => s.collAgain q m
      | _ => s)

/-! ### Faults and aborts -/

/-- CHUNK_FAULT (R148, R241, R260, R264): the next chunk of a command fails, or a collective's endpoint cannot begin. A
chunk above the next one fails when it has become the next one. -/
def execChunkFault (loc : Loc) (slot : BitVec 6) (s : State) : Host.Outcome State Fault Refusal :=
  .next (match s.runningCmd loc slot with
    | none => s
    | some (u, m, c, k) =>
      match k.head, k.begun, s.rank? m.rank with
      | some h, false, some r => match s.roster r m.rank h.comm with
        | (s1, .bad e) => s1.attempt (s1.cmdFault u slot.toNat c k e true k.dst)
        | (s1, _) => s1
      | _, _, _ =>
        if k.next ≥ k.chunks then s else
          match s.chunk c k k.next with
          | (s1, .fault e dst) => s1.attempt (s1.chunkFails u slot.toNat c k e dst)
          | (s1, _) => s1)

/-- A command is abandoned (R148): it leaves PENDING, wherever its counter's segment is, and its slot is free. It waits while
the page of the counter's save frame is held. -/
def State.abandon (s : State) (u slot : Nat) (c : Client) (k : Cmd) : Try State :=
  match s.strand u with
  | none => .ok s
  | some m => (s.counterHome m c k.counter Arrival.finish).map fun s1 => s1.upd u fun n => { n with cmds := tabDel n.cmds slot }

/-- The member's command of an aborted collective stops at its current chunk with ASYNC and PEER_UNREACHABLE, whatever it was
doing, leaves its bytes torn, and is abandoned (R265). The strand stops when it can. -/
def State.abortCmd (s : State) (u slot : Nat) (c : Client) (k : Cmd) : Try State :=
  let torn := if k.state = .running then (natRange k.next 16).foldl (fun (acc : State) i => acc.tearChunk c k i) s else s
  match torn.cmdFault u slot c k cPEER_UNREACHABLE true (k.dst + wd (4096 * k.next)) with
  | .ok s1 => s1.abandon u slot c k
  | o => o

/-- COLLECTIVE_ABORT (R265): the abort meets the member's command for the SEQ; one of a collective not yet issued is kept. -/
def execCollectiveAbort (s : State) : Host.Outcome State Fault Refusal :=
  .next (match s.subjectMsg with
    | none => s
    | some q => match q.body with
      | .abort comm seq dest => match s.reached q.dst dest with
        | .onward d => s.passOn q d
        | .lost => s.dropMsg q.id
        | .here r => match s.collCmd dest comm seq with
          | none => if (seq - (r.comm comm).seq).msb then s.dropMsg q.id else s
          | some (u, slot, k) => match s.cmdAt u k with
            | none => s
            | some (_, c, _) => s.attempt ((s.abortCmd u slot c k).map fun s1 => s1.dropMsg q.id)
      | _ => s)

/-- Some member of a collective has yet to complete it (R265). -/
def State.collOpen (s : State) (job : BitVec 32) (members : List Nat) (comm : Nat) (seq : BitVec 32) : Bool :=
  members.any fun v =>
    let key := rankKey job (BitVec.ofNat 16 v)
    (s.collCmd key comm seq).isSome || match s.rank? key with
    | some r => !(seq - (r.comm comm).seq).msb
    | none => false

/-- The member list of a collective that a strand has issued: as the issue found it, or else as it reads now. -/
def State.issuedTo (s : State) (r : Rank) (key : Nat) (e : IssuedColl) : Try (List Nat) :=
  if !e.members.isEmpty then .ok e.members else match s.roster r key e.comm with
    | (s1, .stall) => .error s1
    | (_, l) => .ok l.members

/-- The aborts of a collective to members of it. -/
def State.sendAborts (s : State) (r : Rank) (key : Nat) (e : IssuedColl) : List Nat → Try State
  | [] => .ok s
  | v :: rest => match s.endpointEntry (r.client key) v with
    | (s1, .fault _) => s1.sendAborts r key e rest
    | (s1, .stall _) => .error s1
    | (s1, .ok d) => (s1.send r.home (BitVec.setWidth 12 d) (64 * s1.ids)
        (.abort e.comm e.seq (rankKey r.job (BitVec.ofNat 16 v)))).sendAborts r key e rest

/-- Of some collectives, each that some member has not completed is aborted: an abort goes to every other member. -/
def State.abortColls (s : State) (r : Rank) (key : Nat) : List IssuedColl → Try State
  | [] => .ok s
  | e :: rest => match s.issuedTo r key e with
    | .error x => .error x
    | .ok l =>
      if !s.collOpen r.job l e.comm e.seq then s.abortColls r key rest
      else match s.sendAborts r key e (l.filter fun v => v ≠ r.vrank.toNat) with
        | .error x => .error x
        | .ok s1 => s1.abortColls r key rest

/-- Ending a strand aborts every collective that it has issued and that some member has not completed (R265). It waits while a
page of the endpoint table or of a member list is held. -/
def State.abortAll (s : State) (m : Strand) : Try State :=
  match s.rank? m.rank with
  | none => .ok s
  | some r => s.abortColls r m.rank m.colls

end Sys2Proof.Machine
end

