-- ==== Sys2Proof/Machine/Csr.lean ====
section
/-! DEFINITION. Control and status registers (R73 to R90, R369, R370) and TCFG (R433). -/

namespace Sys2Proof.Machine

/-- The CSR numbers of the map (R77). -/
def csrAllocated (n : Nat) : Bool :=
  n ≤ 0x008 || (0x010 ≤ n && n ≤ 0x01F) || (0x100 ≤ n && n ≤ 0x17F) || (0x200 ≤ n && n ≤ 0x206) ||
  (0x300 ≤ n && n ≤ 0x49F) || (0x500 ≤ n && n ≤ 0x508) || n = 0x510 || n = 0x511 || (0x580 ≤ n && n ≤ 0x601) ||
  (0x610 ≤ n && n ≤ 0x61F)

/-- Marked "privileged write" below 0x600: BUDGET, the decay table, the die map (R84, R85, R88). -/
def csrPrivWrite (n : Nat) : Bool := n = 0x201 || (0x300 ≤ n && n ≤ 0x3FF) || (0x480 ≤ n && n ≤ 0x49F)

/-! ### Reading -/

/-- DEVID (R78): vendor, part and stepping. -/
def Package.devid (k : Package) : Word := wd (0xAC20 + 0x9480 * 2 ^ 16 + k.ident.stepping.toNat * 2 ^ 32)

/-- The identity and index CSRs (R78). -/
def State.csrIdent (s : State) (m : Strand) (r : Rank) (n : Nat) : Word :=
  let loc := m.place.getD 0
  let p := s.pkg (BitVec.ofNat 10 loc)
  let g := s.gang? m.gang
  let spc := (g.map (·.spc)).getD 1
  let cores := (g.map (·.cores)).getD 1
  let nest := g.bind fun v => s.nest? v.nest
  match n with
  | 0x000 => p.devid
  | 0x001 => p.ident.serial
  | 0x002 => wd loc
  | 0x003 => wd (r.vrank.toNat + r.nrankm1.toNat * 2 ^ 16 + r.job.toNat * 2 ^ 32)
  | 0x004 => wd (m.member + m.member / spc * 2 ^ 8 + (cores - 1) * 2 ^ 12 + (spc - 1) * 2 ^ 16)
  | 0x005 => (nest.map (·.addr)).getD 0
  | 0x006 => wd ((nest.map (·.cls.toNat)).getD 0)
  | 0x007 => r.pseed
  | _ => wd (b2n m.priv)

/-- A word of the mask stack (R79): entry 0 is the top. -/
def Strand.maskWord (m : Strand) (entry word : Nat) : Word :=
  match m.masks[entry]? with
  | some v => v.extractLsb' (64 * word) 64
  | none => 0

/-- The full-empty bits of the 4,096 granules of a logical LS segment of the strand's gang, as a number, wherever they are: in the
segment that has its contents, or in its save frame (R94, R157, R232); all empty for one that has never been bound. -/
def State.feBits (s : State) (m : Strand) (lseg : Nat) : Nat :=
  match s.gang? m.gang with
  | none => 0
  | some g =>
    let e : SegRec := ⟨m.rank, m.gang, lseg, m.member / g.spc, .active⟩
    match s.lsSeg.find? fun x => x.2.same e && x.2.state ≠ .restoring with
    | some (k, _) => s.feNumber (segAddr false k)
    | none => if !s.hasSaved false e then 0 else match s.segFrame false e with
      | some (_, _, some page) => match s.placeOf m page with
        | some a => s.rd a 512
        | none => 0
      | _ => 0

/-- The full-empty bits of a group of 64 granules of the gang's LS (R79, R80, log 20); zero beyond its region. -/
def State.feWord (s : State) (m : Strand) : Word :=
  let g := m.feGroup.toNat
  if g > 1535 || g / 64 ≥ s.lsRegion m.gang then 0 else wd (s.feBits m (g / 64) / 2 ^ (64 * (g % 64)) % 2 ^ 64)

/-- The CSRs 0x010 to 0x01F (R79). -/
def State.csrStrand (s : State) (u : Nat) (m : Strand) (n : Nat) : Word :=
  match n with
  | 0x010 => wd m.win.toNat
  | 0x011 => wd (m.base + m.size * 2 ^ 8)
  | 0x012 => wd (m.nrot + m.rrb.toNat * 2 ^ 8)
  | 0x013 => wd m.boq.length
  | 0x014 => wd m.masks.length
  | 0x015 => wd (m.mEntry.toNat + m.mWord.toNat * 2 ^ 8)
  | 0x016 => m.maskWord m.mEntry.toNat m.mWord.toNat
  | 0x017 => match m.lease with
    | .none => 0
    | .held k c => wd (1 + k * 2 ^ 8 + c * 2 ^ 16)
    | .lapsed => 2
  | 0x01C => s.ownedMask u false
  | 0x01D => s.ownedMask u true
  | 0x01E => wd m.feGroup.toNat
  | 0x01F => s.feWord m
  | _ => wd (packNat 16 ((natRange (4 * (n - 0x018)) 4).map fun k => (m.token (BitVec.ofNat 4 k)).toNat))

/-- The CSRs 0x200 to 0x206 (R84). -/
def csrStep (m : Strand) (r : Rank) (n : Nat) : Word :=
  match n with
  | 0x200 => wd r.gstep.toNat
  | 0x201 => wd (r.cls.toNat + match r.pend.or (r.due.bind (·.cls)) with
    | some p => p.toNat * 2 ^ 8 + 2 ^ 10
    | none => 0)
  | 0x202 => wd (m.rnd.toNat + b2n m.ieee * 16)
  | 0x203 => r.rseed
  | 0x204 => wd (m.lfLane.toNat + b2n m.lfAuto * 2 ^ 15)
  | 0x205 => wd (unit32 m.lanes m.lfLane.toNat).toNat
  | _ => wd m.stepv.toNat

/-- The die map as read (R88): entry 0 shows the home die, entries 30 and 31 read zero. -/
def csrDmap (m : Strand) (r : Rank) (d : Nat) : Word :=
  if d = 0 then wd (2 ^ 63 + r.home.toNat) else if d ≥ 30 then 0 else vget m.dmap 0 d

/-- The error queue (R90). -/
def csrErrq (m : Strand) (n : Nat) : Word :=
  if n = 0x510 then wd (m.errq.length + b2n m.errOvf * 256)
  else if n = 0x511 then 0
  else match m.errq[(n - 0x580) / 2]? with
    | none => 0
    | some e => if n % 2 = 0 then e.addr else wd (e.peer.toNat + e.cause.toNat * 2 ^ 16 + 2 ^ 31)

/-- The tile slot that an access of TCFGn or TSTATn names (R81). -/
def Strand.csrSlot (m : Strand) (rot : Field) (n : Nat) : Option Nat := m.slot rot (BitVec.ofNat 6 n)

/-- The value of an allocated CSR, at a rotation; none for a tile name beyond the window. -/
def State.csrRead (s : State) (u : Nat) (m : Strand) (r : Rank) (rot : Field) (n : Nat) : Option Word :=
  if n ≤ 0x008 then some (s.csrIdent m r n)
  else if n ≤ 0x01F then some (s.csrStrand u m n)
  else if n < 0x140 then (m.csrSlot rot (n - 0x100)).map (vget m.tcfg 0)
  else if n < 0x180 then (m.csrSlot rot (n - 0x140)).map (vget m.tstat 0)
  else if n ≤ 0x206 then some (csrStep m r n)
  else if n < 0x400 then some (wd (tabAt r.decay 0 (n - 0x300)).toNat)
  else if n < 0x480 then some (if n % 2 = 0 then vget m.bindA 0 ((n - 0x400) / 2) else vget m.bindB 0 ((n - 0x400) / 2))
  else if n < 0x4A0 then some (csrDmap m r (n - 0x480))
  else if n ≤ 0x508 then some (vget m.frame 0 (n - 0x500))
  else if n < 0x600 then some (csrErrq m n)
  else if n = 0x600 then some (wd r.home.toNat)
  else if n = 0x601 then some (wd (r.evq.length + b2n r.evOvf * 2 ^ 16))
  else some (if n % 2 = 0 then vget r.srbase 0 ((n - 0x610) / 2) else vget r.srlen 0 ((n - 0x610) / 2))

/-! ### Writing -/

/-- The value of a configuration with its reserved bits clear (R81). -/
def cfgMask (v : Word) : Word := v &&& 0x0001FFFF03F7FF7F

/-- The conditions of R82 on a configuration. -/
def cfgOk (v : Word) : Bool :=
  let rows := cfgRows v
  let cols := cfgCols v
  let f := cfgFmt v
  let needs := f = 0x5 || f = 0x6 || f = 0x7 || f = 0xA || f = 0xB
  let may := (0x3 ≤ f && f ≤ 0x7) || f = 0xA || f = 0xB
  v = 0 ||
    (1 ≤ rows && rows ≤ 64 && 1 ≤ cols && f ≠ 0xE && rows * cols * cfgWidth f ≤ 32768 &&
     (!needs || cfgScaled v) && (!cfgScaled v || may) && (f ≠ 0xB || !cfgUe4m3 v) &&
     (!cfgScaled v || cfgSptr v * 16 + planeBytes v ≤ 1572864))

/-- WIN as a write of its field leaves it (R48, R79): the value is what stands in bits [10:0] (log 86). -/
def winClamp (v : Nat) : BitVec 11 := BitVec.ofNat 11 (min 1024 (max 16 v))

/-- A stamped-region CSR after a write (R87): none for a valid region of length zero. -/
def Rank.writeRegion (r : Rank) (n : Nat) (v : Word) : Option Rank :=
  let i := (n - 0x610) / 2
  let base := if n % 2 = 0 then v &&& 0x01FFFFFFFFFF0001 else vget r.srbase 0 i
  let len := if n % 2 = 0 then vget r.srlen 0 i else v &&& 0xFFFFFFFF
  if bit base 0 && len = 0 then none
  else some { r with srbase := vset r.srbase i base, srlen := vset r.srlen i len }

/-- What a write of a CSR comes to: a cause with its FADDR, or the state. `v` is the value, `clr` the operand whose ones
clear the W1C fields (R370), `t` the place of the write in text order for a change of the rotation. -/
def State.csrWrite (s : State) (u : Nat) (m : Strand) (r : Rank) (rot : Field) (n : Nat) (v clr : Word) :
    (BitVec 8 × Word) ⊕ State :=
  let put := fun (k : Strand) => Sum.inr (s.setStrand u k)
  if n = 0x010 then put { m with win := winClamp (fld v 10 0) }
  else if n = 0x012 then
    let b : Field := if m.nrot = 0 then 0 else BitVec.ofNat 6 (fld v 13 8 % m.nrot)
    put { m with rrb := b, walk := m.walk.map fun w => if m.c.pos < w.pos then { w with rot := b } else w }
  else if n = 0x015 then put { m with mEntry := BitVec.ofNat 3 (fld v 2 0), mWord := BitVec.ofNat 4 (fld v 11 8) }
  else if n = 0x01E then put { m with feGroup := BitVec.ofNat 11 (fld v 10 0) }
  else if 0x100 ≤ n && n < 0x140 then
    match m.csrSlot rot (n - 0x100) with
    | none => .inl (cTILE_CONFIG, wd (n - 0x100))
    | some k =>
      if cfgOk (cfgMask v) then put { m with tcfg := vset m.tcfg k (cfgMask v) } else .inl (cTILE_CONFIG, wd (n - 0x100))
  else if 0x140 ≤ n && n < 0x180 then
    match m.csrSlot rot (n - 0x140) with
    | none => .inl (cTILE_CONFIG, wd (n - 0x140))
    | some k => put { m with tstat := vset m.tstat k (v &&& 0x3FFFF) }
  else if n = 0x201 then .inr (s.setRank m.rank { r with pend := some (BitVec.ofNat 2 (fld v 1 0)) })
  else if n = 0x202 then
    if fld v 2 0 > 4 then .inl (cILLEGAL, 0) else put { m with rnd := BitVec.ofNat 3 (fld v 2 0), ieee := bit v 4 }
  else if n = 0x204 then put { m with lfLane := BitVec.ofNat 10 (fld v 9 0), lfAuto := bit v 15 }
  else if n = 0x205 then
    let x := if fld v 31 0 = 0 then 1 else fld v 31 0
    put { m with lanes := putBits m.lanes (32 * m.lfLane.toNat) 32 x }
  else if 0x300 ≤ n && n < 0x400 then
    .inr (s.setRank m.rank { r with decay := tabSet r.decay 0 (n - 0x300) (BitVec.ofNat 48 v.toNat) })
  else if 0x481 ≤ n && n ≤ 0x49D then put { m with dmap := vset m.dmap (n - 0x480) (v &&& 0x8000000000000FFF) }
  else if n = 0x500 then
    put { m with frame := vset m.frame 0 (if bit clr 15 then vget m.frame 0 0 &&& ~~~(0x8000 : Word) else vget m.frame 0 0) }
  else if n = 0x510 then put { m with errOvf := m.errOvf && !bit clr 8 }
  else if n = 0x511 then put { m with errq := m.errq.drop (fld v 6 0) }
  else if 0x610 ≤ n then match r.writeRegion n v with
    | none => .inl (cILLEGAL, 0)
    | some r1 => .inr (s.setRank m.rank r1)
  else .inr s

/-- LFSEL.LANE advances after an access of LFDATA when AUTO is set (R84, R370). -/
def Strand.lfAdvance (m : Strand) (n : Nat) : Strand :=
  if n = 0x205 && m.lfAuto then { m with lfLane := m.lfLane + 1 } else m

/-- A CSR word (R370): the checks of R75 in their order, the old value to `d`, the write of the form. -/
def csrWord (s : State) (d : Field) (csr : BitVec 12) (writes : Bool) (value : Strand → Word → Word)
    (clear : Strand → Word) : Host.Outcome State Fault Refusal :=
  onWord s .c false false fun u m =>
    let n := csr.toNat
    let rot := m.rotAt .c
    if !m.priv && n ≥ 0x600 then s.raise u .c cPRIV 0 0
    else if !csrAllocated n then s.raise u .c cILLEGAL 0 0
    else if !m.priv && writes && csrPrivWrite n then s.raise u .c cPRIV 0 0
    else match s.rank? m.rank with
      | none => s
      | some r => match s.csrRead u m r rot n with
        | none => s.raise u .c cTILE_CONFIG (wd (n % 64)) 0
        | some old =>
          let finish := fun (x : State) => x.upd u fun k => ((k.lfAdvance n).setReg d old).retire .c
          if !writes then finish s
          else match s.csrWrite u m r rot n (value m old) (clear m) with
            | .inl (e, a) => s.raise u .c e a 0
            | .inr s1 => finish s1

/-- CSR.R (R369, R370). -/
def execCsrR (d : Field) (c : BitVec 12) (s : State) : Host.Outcome State Fault Refusal :=
  csrWord s d c false (fun _ v => v) fun _ => 0

/-- CSR.W. -/
def execCsrW (d a : Field) (c : BitVec 12) (s : State) : Host.Outcome State Fault Refusal :=
  csrWord s d c true (fun m _ => m.reg a) fun m => m.reg a

/-- CSR.S writes when `a` is not `g0`. -/
def execCsrS (d a : Field) (c : BitVec 12) (s : State) : Host.Outcome State Fault Refusal :=
  csrWord s d c (a ≠ 0) (fun m v => v ||| m.reg a) fun m => m.reg a

/-- CSR.C writes when `a` is not `g0`, and clears no W1C field. -/
def execCsrC (d a : Field) (c : BitVec 12) (s : State) : Host.Outcome State Fault Refusal :=
  csrWord s d c (a ≠ 0) (fun m v => v &&& ~~~m.reg a) fun _ => 0

/-- TCFG (R433): the write of R82 to the tile that the name denotes at this word. -/
def execTcfg (n a : Field) (s : State) : Host.Outcome State Fault Refusal :=
  onWord s .c false false fun u m =>
    match m.slot (m.rotAt .c) n with
    | none => s.raise u .c cTILE_CONFIG (wd n.toNat) 0
    | some k =>
      if cfgOk (cfgMask (m.reg a)) then s.setStrand u ({ m with tcfg := vset m.tcfg k (cfgMask (m.reg a)) }.retire .c)
      else s.raise u .c cTILE_CONFIG (wd n.toNat) 0

end Sys2Proof.Machine
end

