-- ==== Sys2Proof/Machine/Branch.lean ====
section
/-! DEFINITION. The branch words (R50, R51): each resolves its outcome, appends it to the branch outcome queue, and its
stream goes on into the delay slots. -/

namespace Sys2Proof.Machine

/-- Where a word offset leads from a branch word (R301). -/
def branchTarget {n : Nat} (pc : Word) (o : BitVec n) : Word := pc + (o.signExtend 64 <<< 2)

/-- A resolved branch: the outcome is appended and the word passed, with two delay slots to come (R50, R51). -/
def Strand.resolve (m : Strand) (t : Stream) (taken : Bool) (target : Word) : Strand :=
  let p := m.stream t
  let dest := if taken then target else p.pc + 12
  let m1 := m.markDone t
  Strand.prune { m1.setStream t { pc := p.pc + 4, pos := p.pos + 1, delay := 2, target := dest, wait := .none } with
    boq := m.boq ++ [{ pos := p.pos, taken := taken, target := dest }] }

/-- A branch word: it waits while the queue holds WIN or more outcomes (R50), and is barred from delay slots (R52). -/
def onBranch (s : State) (t : Stream) (f : Strand → Strand × Bool × Word) : Host.Outcome State Fault Refusal :=
  onWord s t true false fun u m =>
    if m.boq.length ≥ m.win.toNat then s else
      s.setStrand u ((f m).1.resolve t (f m).2.1 (f m).2.2)

/-- A conditional branch of the C stream (R349). -/
def condBranch (s : State) (a b : Field) (o : BitVec 12) (p : Word → Word → Bool) : Host.Outcome State Fault Refusal :=
  onBranch s .c fun m => (m, p (m.reg a) (m.reg b), branchTarget m.c.pc o)

/-- R348. -/
def execB (o : BitVec 24) (s : State) : Host.Outcome State Fault Refusal :=
  onBranch s .c fun m => (m, true, branchTarget m.c.pc o)

/-- R356: `g63` takes the word after the second delay slot. -/
def execCall (o : BitVec 24) (s : State) : Host.Outcome State Fault Refusal :=
  onBranch s .c fun m => (m.setReg 63 (m.c.pc + 12), true, branchTarget m.c.pc o)

/-- R386: a target that is not a multiple of 4 raises ALIGN at the JR. -/
def execJr (a : Field) (s : State) : Host.Outcome State Fault Refusal :=
  onWord s .c true false fun u m =>
    if (m.reg a).toNat % 4 ≠ 0 then s.raise u .c cALIGN (m.reg a) 0
    else if m.boq.length ≥ m.win.toNat then s
    else s.setStrand u (m.resolve .c true (m.reg a))

/-- The rotation after one LOOP (R155). -/
def Strand.rotate (m : Strand) : Field :=
  if m.nrot = 0 then m.rrb else BitVec.ofNat 6 ((m.rrb.toNat + m.nrot - 1) % m.nrot)

/-- R393: counts down, rotates whether or not the branch is taken. -/
def execLoop (a : Field) (o : BitVec 12) (s : State) : Host.Outcome State Fault Refusal :=
  onBranch s .c fun m =>
    ({ m.setReg a (m.reg a - 1) with rrb := m.rotate }, m.reg a - 1 ≠ 0, branchTarget m.c.pc o)

/-- R349. -/
def execBeq (a b : Field) (o : BitVec 12) (s : State) : Host.Outcome State Fault Refusal :=
  condBranch s a b o fun x y => x == y

/-- R349. -/
def execBne (a b : Field) (o : BitVec 12) (s : State) : Host.Outcome State Fault Refusal :=
  condBranch s a b o fun x y => x != y

/-- R349. -/
def execBlt (a b : Field) (o : BitVec 12) (s : State) : Host.Outcome State Fault Refusal :=
  condBranch s a b o fun x y => x.slt y

/-- R349. -/
def execBge (a b : Field) (o : BitVec 12) (s : State) : Host.Outcome State Fault Refusal :=
  condBranch s a b o fun x y => !x.slt y

/-- R349. -/
def execBltu (a b : Field) (o : BitVec 12) (s : State) : Host.Outcome State Fault Refusal :=
  condBranch s a b o fun x y => x.ult y

/-- R349. -/
def execBgeu (a b : Field) (o : BitVec 12) (s : State) : Host.Outcome State Fault Refusal :=
  condBranch s a b o fun x y => !x.ult y

/-- R354: taken when the top mask is all zero. -/
def execBmz (o : BitVec 12) (s : State) : Host.Outcome State Fault Refusal :=
  onBranch s .x fun m => (m, m.mask == 0, branchTarget m.x.pc o)

end Sys2Proof.Machine
end

