-- ==== Sys2Proof/Machine/Cells.lean ====
section
/-! DEFINITION. Sync cells: ACQ, REL and BIND, and the requests, grants and releases of cells (R207 to R211, R331, R332,
R352, R353, R410, R411). -/

namespace Sys2Proof.Machine

/-- The checks of R207 that need no translation: bits [63:57], the 64-byte alignment, domain 31. -/
def cellCheck (va : Word) : Option (BitVec 8) :=
  if fld va 63 57 ≠ 0 then some cADDR_RANGE
  else if va.toNat % 64 ≠ 0 then some cALIGN
  else if fld va 56 52 = 31 then some cADDR_RANGE
  else none

/-- How a request names its cell, when die `d` translates it. -/
def CellAddr.name (a : CellAddr) (d : DieKey) : CellName := ⟨d, a.job, a.key, a.off⟩

/-- A request or a release of a strand for a cell, as it is sent. -/
def mkCell (u : Nat) (c : Client) (p : Spot) (va : Word) : CellAddr :=
  { uid := u, job := c.job, key := p.key, off := p.off, va := va, home := c.home, phys := none, via := c.die }

/-- A request reaches the cell's serving die: a strand that already holds the cell is told at once, any other joins the
queue (R209); a strand that has ended asks for nothing any more. The cell is one that the strand's job may write (R17). -/
def State.cellAsk (s : State) (d : DieKey) (addr : Nat) (r : CellReq) : State :=
  let a := s.confine r.name.job r.name.via addr
  match s.strand r.uid with
  | none => s
  | some m => if m.state = .ended then s else match s.holdOf d a r.uid with
    | some h => s.send d (locDie (m.place.getD 0)) (a % 2 ^ 40) (.cellGrant r.uid h.excl false)
    | none => s.queueCell d a r

/-- How a cell word reaches its cell: at the strand's own die, by a message, not at all for a cause of R174, or after a
stall. A former home sends a message on once (R164). -/
inductive CellWay where
  | here (addr : Nat) (name : CellName)
  | ask (die : DieKey) (route : Nat) (forwarded : Bool) (a : CellAddr)
  | fault (cause : BitVec 8)
  | stall
  deriving DecidableEq, Repr

/-- The way of a cell word of the strand (R163, R164, R207). -/
def State.cellWay (s : State) (u : Nat) (c : Client) (va : Word) : State × CellWay :=
  match s.resolve c va with
  | (s1, .fault e) => (s1, .fault e)
  | (s1, .stall _) => (s1, .stall)
  | (s1, .ok p) =>
    if !s1.reach c.die p.die p.off then (s1, .fault cPEER_UNREACHABLE)
    else if p.die ≠ c.die then (s1, .ask p.die p.off false (mkCell u c p va))
    else match s1.servedAt c.die p.die c.job p.key p.off with
      | none => (s1, .fault cPEER_UNREACHABLE)
      | some d =>
        if d ≠ c.die then (s1, .ask d p.off true (mkCell u c p va))
        else match s1.locate p c.job c.home c.die true with
          | (s2, .fault e) => (s2, .fault e)
          | (s2, .stall _) => (s2, .stall)
          | (s2, .ok t) =>
            if t.local_ then (s2, .here t.addr ((mkCell u c p va).name c.die))
            else (s2, .ask t.die (t.addr % 2 ^ 40) true { mkCell u c p va with phys := some (t.addr, t.polder) })

/-- ACQ once its address has passed the checks without translation (R332): the request goes to the serving die. -/
def State.acquire (s : State) (u : Nat) (c : Client) (va : Word) (excl : Bool) : State :=
  let wait := fun (x : State) => x.upd u fun m => { m.setWait .c .cell with acq := some (va, none) }
  match s.cellWay u c va with
  | (s1, .fault e) => s1.raise u .c e va 0
  | (s1, .stall) => s1
  | (s1, .here addr name) => match s1.cellWait c.die addr with
    | some x => x
    | none => wait (s1.cellAsk c.die addr ⟨u, excl, name⟩)
  | (s1, .ask d route fwd a) => wait (s1.sendOn c.die d route fwd (.cellReq a excl))

/-- ACQ: a request that the strand has made before a stop is still in its queue (R209), or has been granted, which its entries
show from then on at the latest (log 60). -/
def acqWord (s : State) (p : Field) (excl : Bool) : Host.Outcome State Fault Refusal :=
  onWord s .c false false fun u m =>
    let va := m.reg p
    match m.acq with
    | some (_, some held) => s.setStrand u ({ s.granted m held with acq := none }.retire .c)
    | some (_, none) => s.setStrand u (m.setWait .c .cell)
    | none => match cellCheck va with
      | some e => s.raise u .c e va 0
      | none => match s.clientOf m with
        | none => s
        | some c => if s.writeAhead u m .c va then s else s.acquire u c va excl

/-- ACQ, exclusive (R331, R332). -/
def execAcq (p : Field) (s : State) : Host.Outcome State Fault Refusal := acqWord s p true

/-- ACQ.SH (R331, R332). -/
def execAcqSh (p : Field) (s : State) : Host.Outcome State Fault Refusal := acqWord s p false

/-- The release is applied and, at the same instant, the strand's entries stop showing the hold (R411). -/
def State.cellDrop (s : State) (d : DieKey) (addr u : Nat) (job : BitVec 32) (via : DieKey) (va : Word) : State :=
  let a := s.confine job via addr
  match s.holdOf d a u with
  | none => s
  | some _ => (s.releaseCell d a u).upd u fun m => m.markBind (s.sameCell m va) false false

/-- REL (R411): waits as R206 states, then sends the release. -/
def execRel (p : Field) (s : State) : Host.Outcome State Fault Refusal :=
  onWord s .c false false fun u m =>
    let va := m.reg p
    match cellCheck va with
    | some e => s.raise u .c e va 0
    | none => if !s.quiet u m .c then s else
      match s.clientOf m with
      | none => s
      | some c => match s.cellWay u c va with
        | (s1, .fault e) => s1.raise u .c e va 0
        | (s1, .stall) => s1
        | (s1, .here addr _) => match s1.cellWait c.die addr with
          | some x => x
          | none => (s1.cellDrop c.die addr u c.job c.die va).done u .c
        | (s1, .ask d route fwd a) => (s1.sendOn c.die d route fwd (.cellRel a true)).waitFor u .c (.reply s1.ids)

/-- Where a cell message's bytes lie at the die it has reached; a POLDER or PEER leaf sends the message on, and one whose bytes have
come to somebody else goes back to be translated anew. -/
def State.cellAt (s : State) (q : Msg) (a : CellAddr) : State × Res (Option Nat × CellAddr × DieKey) :=
  match a.phys with
  | some (addr, polder) =>
    if s.strayed a.via q.dst a.job a.key a.off addr then (s, .ok (none, { a with phys := none }, a.via))
    else if polder && !(s.die q.dst).lends (peerOf a.via) (addr % 2 ^ 40 / 65536) then (s, .fault cPOLDER_LOST)
    else match s.pageWait a.via a.job a.key a.off true with
      | some x => (x, .stall .none)
      | none => (s, .ok (some addr, a, q.dst))
  | none => match s.forwardOf q.dst a.job a.key with
    | none => (s, .fault cPEER_UNREACHABLE)
    | some d =>
      if d ≠ q.dst then
        if q.forwarded || !s.reachFrom q.dst q.src d q.route then (s, .fault cPEER_UNREACHABLE) else (s, .ok (none, a, d))
      else match s.locate ⟨d, a.key, a.off⟩ a.job a.home q.src true with
        | (s1, .fault e) => (s1, .fault e)
        | (s1, .stall w) => (s1, .stall w)
        | (s1, .ok t) =>
          if t.local_ then (s1, .ok (some t.addr, { a with via := d }, d))
          else (s1, .ok (none, { a with phys := some (t.addr, t.polder), via := d }, t.die))

/-- A cell message goes on to another die, by its physical offset once it has been translated. -/
def State.cellForward (s : State) (q : Msg) (d : DieKey) (a : CellAddr) (body : Body) : State :=
  s.setMsg (q.onward d (match a.phys with
    | some (x, _) => x % 2 ^ 40
    | none => a.off) body)

/-- CELL_REQUEST (R209): a request arrives at its cell's die. -/
def execCellRequest (s : State) : Host.Outcome State Fault Refusal :=
  .next (match s.subjectMsg with
    | none => s
    | some q => match q.body with
      | .cellReq a excl => match s.cellAt q a with
        | (s1, .stall _) => s1
        | (s1, .fault e) => s1.reply q (.refuse a.uid .c e a.va q.id)
        | (s1, .ok (some addr, a1, _)) => match s1.cellWait q.dst addr with
          | some x => x
          | none => (s1.dropMsg q.id).cellAsk q.dst addr ⟨a1.uid, excl, a1.name a1.via⟩
        | (s1, .ok (none, a1, d)) => s1.cellForward q d a1 (.cellReq a1 excl)
      | _ => s)

/-- CELL_RELEASE (R209, R411): a release arrives, is applied and acknowledged. -/
def execCellRelease (s : State) : Host.Outcome State Fault Refusal :=
  .next (match s.subjectMsg with
    | none => s
    | some q => match q.body with
      | .cellRel a excl => match s.cellAt q a with
        | (s1, .stall _) => s1
        | (s1, .fault e) => s1.reply q (.refuse a.uid .c e a.va q.id)
        | (s1, .ok (some addr, a1, _)) => match s1.cellWait q.dst addr with
          | some x => x
          | none =>
          (s1.cellDrop q.dst addr a1.uid a1.job a1.via a1.va).reply q (.reply a1.uid .c 0 0 a1.va q.id)
        | (s1, .ok (none, a1, d)) => s1.cellForward q d a1 (.cellRel a1 excl)
      | _ => s)

/-- CELL_GRANT (R205, R209, R332): the grant reaches the strand; a hold already held changes nothing. A strand that is
stopped sees the grant when it resumes. -/
def execCellGrant (s : State) : Host.Outcome State Fault Refusal :=
  .next (match s.subjectMsg with
    | none => s
    | some q => match q.body with
      | .cellGrant u excl fresh => match (s.dropMsg q.id).strand u with
        | none => s.dropMsg q.id
        | some m =>
          let m1 := if fresh then s.granted m excl else { m with acq := m.acq.map fun x => (x.1, some excl) }
          (s.dropMsg q.id).setStrand u
            (if m.c.wait = .cell && m.canIssue then { m1 with acq := none }.retire .c else m1)
      | _ => s)

/-- BIND (R353): the first row that applies decides. -/
def execBind (p q r e : Field) (s : State) : Host.Outcome State Fault Refusal :=
  onWord s .c false false fun u m =>
    let base := m.reg p
    let len := (m.reg q).toNat
    let cell := m.reg r
    let b := vget m.bindB 0 e.toNat
    let set := fun (x : State) (a b : Word) => x.upd u fun m => { m with
      bindA := vset m.bindA e.toNat a, bindB := vset m.bindB e.toNat b }.retire .c
    if len = 0 then
      if bindHeld b then s.raise u .c cILLEGAL 0 0 else set s (vget m.bindA 0 e.toNat) (b &&& ~~~(1 : Word))
    else if len % 4096 ≠ 0 || len > 2147483648 then s.raise u .c cILLEGAL 0 0
    else if base.toNat % 4096 ≠ 0 then s.raise u .c cALIGN base 0
    else match cellCheck cell with
      | some k => s.raise u .c k cell 0
      | none => match s.clientOf m with
        | none => s
        | some c => match s.access c cell 8 true with
          | (s1, .fault k) => s1.raise u .c k cell 0
          | (s1, .stall _) => s1
          | (s1, .ok t) =>
            if bindHeld b && !s1.sameCell m (bindCell b) cell then s1.raise u .c cILLEGAL 0 0
            else
              let a := wd (fld base 56 12 + (len / 4096 - 1) * 2 ^ 45)
              let hold := s1.holdOf t.die t.addr u
              let held := match hold with
                | some h => if h.excl then (2 : Word) else 6
                | none => if bindHeld b then b &&& 6 else 0
              set s1 a (1 ||| held ||| (cell &&& 0x01FFFFFFFFFFFFC0))

end Sys2Proof.Machine
end

