-- ==== Sys2Proof/Machine/Lend.lean ====
section
/-! DEFINITION. Polder leases (R184 to R198): LEND and RECLAIM (R391, R409), the lease messages, the copying of a reclaim's
live pages, the deadline, the fence and poison. -/

namespace Sys2Proof.Machine

/-! ### Entries -/

/-- An entry's fields from the words W0 to W2 of a descriptor (R185); RMAP and RMT, which mean something on the borrower's side only, are
kept and shown in the lender's entry too (log 109). -/
def polderOf (w0 w1 w2 : Word) (state : BitVec 3) (borrower : Bool) : Polder :=
  { state := state, borrower := borrower, dclass := BitVec.ofNat 2 (fld w0 5 4), lender := BitVec.ofNat 12 (fld w0 19 8)
    borrow := BitVec.ofNat 12 (fld w0 31 20), job := BitVec.ofNat 32 (fld w0 63 32), base := BitVec.ofNat 32 (fld w1 31 0)
    len := BitVec.ofNat 17 (fld w1 48 32), rmap := BitVec.ofNat 52 (fld w2 51 0), rmt := bit w2 52, dleft := 0, live := 0
    granule := 0, peer := 0, range := none, todo := [] }

/-- The lowest FREE entry of a die's 16. -/
def Die.freeEntry (d : Die) : Option Nat := (List.range 16).find? fun i => (tabGet d.polders i).isNone

/-- Changes an entry of a die's table. -/
def State.updPolder (s : State) (d : DieKey) (i : Nat) (f : Polder → Polder) : State :=
  match tabGet (s.die d).polders i with
  | none => s
  | some p => s.updDie d fun v => { v with polders := tabPut v.polders i (f p) }

/-- An entry becomes FREE: its record goes, so that all its fields read 0, the reset values of R185, which says nothing of an entry that
becomes FREE again (log 109). -/
def State.freePolder (s : State) (d : DieKey) (i : Nat) : State :=
  s.updDie d fun v => { v with polders := tabDel v.polders i }

/-- A malformed descriptor (R187, step 1); bits [3:0] of RMAP count as reserved (log 93). -/
def lendMalformed (w0 w1 w2 w3 : Word) : Bool :=
  let len := fld w1 48 32
  let base := fld w1 31 0
  len = 0 || base % 32 ≠ 0 || base + 32 * len > 2097152 || fld w0 19 8 = fld w0 31 20 || fld w0 7 6 ≠ 0 ||
    fld w1 63 49 ≠ 0 || fld w2 63 53 ≠ 0 || fld w2 3 0 ≠ 0 || w3 ≠ 0

/-- Two regions of frames overlap. -/
def Polder.meets (p q : Polder) : Bool :=
  p.base.toNat < q.base.toNat + 32 * q.len.toNat && q.base.toNat < p.base.toNat + 32 * p.len.toNat

/-- The lease notification of a lender-side entry that becomes RETURNED or FENCED (R190, R289). -/
def State.leaseNote (s : State) (d : DieKey) (i : Nat) (p : Polder) (state : Nat) : State :=
  s.notify (pkgOf d) (notePayload 0x01 ((peerOf d).toNat * 2 ^ 8 + i * 2 ^ 20 + state * 2 ^ 24 + p.job.toNat * 2 ^ 32 +
    p.borrow.toNat * 2 ^ 64))

/-- The deadline of R196. -/
def deadline (dclass len : Nat) : Nat := 70000 * 2 ^ dclass + ceilDiv (len * 2097152 * 7) 1280

/-! ### LEND -/

/-- The die at which an asker hears of its lease. -/
def State.askerDie (s : State) : Asker → DieKey
  | .sluice p _ => sluiceDie p
  | .strand u _ => match s.strand u with
    | some m => match m.place with
      | some loc => locDie loc
      | none => 0
    | none => 0

/-- The outcome of a LEND goes to its asker; the entry numbers are 0 for a status other than 0 (R187, log 93). -/
def State.lendAnswer (s : State) (from_ : DieKey) (status : BitVec 8) (le be : Nat) (who : Asker) : State :=
  s.send from_ (s.askerDie who) (64 * s.ids) (.lendDone status le be who)

/-- LEND (R187, R391): reads the descriptor, after the strand's own stores (R201), and sends the request to the lender; the C stream
waits for the status. -/
def execLend (d q : Field) (s : State) : Host.Outcome State Fault Refusal :=
  onWord s .c false true fun u m =>
    match s.clientOf m with
    | none => s
    | some c => if s.writesOut u then s else match s.readVa c (m.reg q) 32 with
      | (s1, .fault e) => s1.raise u .c e (m.reg q) 0
      | (s1, .stall w) => s1.waitFor u .c w
      | (s1, .ok v) =>
        let w := fun i => wd (v / 2 ^ (64 * i) % 2 ^ 64)
        let lender := dieOfPeer (BitVec.ofNat 12 (fld (w 0) 19 8))
        if s1.reach c.die lender 0 then
          (s1.send c.die lender (64 * s1.ids) (.lend (w 0) (w 1) (w 2) (w 3) (.strand u d))).waitFor u .c .lease
        else s1.upd u fun n => (n.setReg d 5).retire .c

/-- LEND_REQUEST (R187, steps 1 to 3): the offer reaches the lender, whose entry keeps W2 of the descriptor as well (log 109). -/
def execLendRequest (s : State) : Host.Outcome State Fault Refusal :=
  .next (match s.subjectMsg with
    | none => s
    | some q => match q.body with
      | .lend w0 w1 w2 w3 who =>
        let s1 := s.dropMsg q.id
        let d := s1.die q.dst
        let p := polderOf w0 w1 w2 1 false
        if lendMalformed w0 w1 w2 w3 then s1.lendAnswer q.dst 1 0 0 who
        else match d.freeEntry with
          | none => s1.lendAnswer q.dst 2 0 0 who
          | some i =>
            if d.polders.any fun e => !e.2.borrower && e.2.meets p then s1.lendAnswer q.dst 3 0 0 who
            else
              let s2 := s1.updDie q.dst fun v => { v with polders := tabPut v.polders i p }
              s2.send q.dst (dieOfPeer p.borrow) (64 * s2.ids) (.offer i p who)
      | _ => s)

/-- LEASE_OFFER (R187, step 3): the borrower takes its lowest FREE entry and answers. -/
def execLeaseOffer (s : State) : Host.Outcome State Fault Refusal :=
  .next (match s.subjectMsg with
    | none => s
    | some q => match q.body with
      | .offer le p who =>
        let s1 := s.dropMsg q.id
        let i := (s1.die q.dst).freeEntry
        let s2 := match i with
          | none => s1
          | some j =>
            let taken : Polder := { p with state := 2, borrower := true, peer := le }
            s1.updDie q.dst fun v => { v with polders := tabPut v.polders j taken }
        s2.send q.dst q.src (64 * s2.ids) (.answer le i who)
      | _ => s)

/-- The offer of a lender's entry has failed: the entry is FREE again, if its die has not lost it, and the asker hears the status
(R189, R190). -/
def State.offerFails (s : State) (d : DieKey) (i : Nat) (status : BitVec 8) (who : Asker) : State :=
  let offered := (tabGet (s.die d).polders i).any fun (p : Polder) => !p.borrower && p.state = 1
  (if offered then s.freePolder d i else s).lendAnswer d status 0 0 who

/-- The borrower's answer does not reach the lender (R189): both entries are FREE again, and the asker hears status 5. -/
def State.answerLost (s : State) (lender borrower : DieKey) (i : Nat) (accepted : Option Nat) (who : Asker) : State :=
  let s1 := match accepted with
    | none => s
    | some j =>
      let taken := (tabGet (s.die borrower).polders j).any fun (p : Polder) =>
        p.borrower && p.state = 2 && p.peer = i && p.lender = peerOf lender
      if taken then s.freePolder borrower j else s
  s1.offerFails lender i 5 who

/-- OFFER_ANSWER (R187, step 4). -/
def execOfferAnswer (s : State) : Host.Outcome State Fault Refusal :=
  .next (match s.subjectMsg with
    | none => s
    | some q => match q.body with
      | .answer i accepted who =>
        let s1 := s.dropMsg q.id
        match accepted, tabGet (s1.die q.dst).polders i with
        | some j, some p =>
          if !p.borrower && p.state = 1 then
            (s1.updPolder q.dst i fun p => { p with state := 2, peer := j }).lendAnswer q.dst 0 i j who
          else s1.answerLost q.dst q.src i accepted who
        | none, _ => s1.offerFails q.dst i 4 who
        | _, none => s1.answerLost q.dst q.src i accepted who
      | _ => s)

/-! ### RECLAIM -/

/-- RECLAIM acts on one entry (R188, R189): the status. -/
def State.reclaim (s : State) (own : DieKey) (ga : Word) : State × Nat :=
  let d := dieOfPeer (BitVec.ofNat 12 ga.toNat)
  let i := fld ga 15 12
  if fld ga 63 16 ≠ 0 then (s, 1)
  else if !s.reach own d 0 then (s, 5)
  else match tabGet (s.die d).polders i with
    | none => (s, 1)
    | some p =>
      match p.borrower, p.state.toNat with
      | false, 2 =>
        let s1 := s.updPolder d i fun p => { p with
          state := 3, dleft := BitVec.ofNat 32 (deadline p.dclass.toNat p.len.toNat) }
        (s1.send d (dieOfPeer p.borrow) (64 * s1.ids) (.reclaimEvent i p.peer), 0)
      | false, 4 => (s.freePolder d i, 0)
      | false, 5 => (s.freePolder d i, 0)
      | false, 1 => (s, 3)
      | false, 3 => (s, 3)
      | true, 5 => (s.freePolder d i, 0)
      | _, _ => (s, 1)

/-- RECLAIM (R188, R409), which waits while requests to the named die are held (R257). -/
def execReclaim (d q : Field) (s : State) : Host.Outcome State Fault Refusal :=
  onWord s .c false true fun u m =>
    let own := locDie (m.place.getD 0)
    if s.legHeld own own (dieOfPeer (BitVec.ofNat 12 (m.reg q).toNat)) then s else
      let (s1, status) := s.reclaim own (m.reg q)
      s1.upd u fun n => (n.setReg d (wd status)).retire .c

/-! ### Live pages (R192, R193) -/

/-- A live page with its leaf. -/
structure LivePage extends LiveAt where
  leaf : Word
  deriving DecidableEq, Repr

/-- The live page of a granule, if there is one. -/
def State.livePage (s : State) (d : DieKey) (p : Polder) (i : Nat) : Option LivePage :=
  let lo := s.physWord d p.rmt (p.rmap.toNat + 16 * i)
  let hi := s.physWord d p.rmt (p.rmap.toNat + 16 * i + 8)
  if !bit lo 0 then none else
    let at_ := fld lo 51 3 * 8
    let leaf := s.physWord d (bit lo 1) at_
    if leafV leaf && leafTier leaf = 2 && leafPeer leaf = p.lender && leafFrame leaf = p.base.toNat + i then
      some ⟨⟨i, bit lo 1, at_, fld hi 35 0, fld hi 51 36, leafSize leaf⟩, leaf⟩
    else none

/-- The live page that the reclaim event found, as long as it is the one that its granule holds: a page mapped there since is
another one (R193). -/
def State.stillLive (s : State) (d : DieKey) (p : Polder) (k : LiveAt) : Option LivePage :=
  (s.livePage d p k.granule).filter fun g => g.toLiveAt = k

/-- Granules of a lease. -/
def Polder.granules (p : Polder) : Nat := 32 * p.len.toNat

/-- The live pages from a granule on, in ascending order (R193). -/
def State.liveFrom (s : State) (d : DieKey) (p : Polder) (i : Nat) : List LivePage :=
  (natRange i (p.granules - i)).filterMap (s.livePage d p)

/-- Granules that a page takes. -/
def LivePage.units (g : LivePage) : Nat := sizeUnits g.size

/-- The event of a range of demoted or poisoned pages (R195). -/
def State.rangeEvent (s : State) (i : Nat) (p : Polder) (lost : Bool) (r : Nat × Nat × Nat) : State :=
  let (vrank, first, pages) := r
  s.event (rankKey p.job (BitVec.ofNat 16 vrank)) (evPayload (if lost then 0x22 else 0x21)
    (i * 2 ^ 8 + p.lender.toNat * 2 ^ 12 + (if lost then 2 else 1) * 2 ^ 24) (first + pages * 2 ^ 36))

/-- A page joins the range, or breaks it (R195). -/
def joinRange (r : Option (Nat × Nat × Nat)) (g : LivePage) : Option (Nat × Nat × Nat) × (Nat × Nat × Nat) :=
  match r with
  | some (v, f, n) => if v = g.vrank && f + n = g.offp then (none, (v, f, n + g.units)) else (some (v, f, n), (g.vrank, g.offp, g.units))
  | none => (none, (g.vrank, g.offp, g.units))

/-- The range that is open ends with its event. -/
def State.closeRange (s : State) (d : DieKey) (i : Nat) : State :=
  match tabGet (s.die d).polders i with
  | none => s
  | some p => match p.range with
    | none => s
    | some r => (s.rangeEvent i p false r).updPolder d i fun p => { p with range := none }

/-- The copying of a reclaim has passed the last page: the open range ends, and with no live page left the entry is FREE and the
lender is told (R190, R193, R195). -/
def State.reclaimEnds (s : State) (d : DieKey) (i : Nat) : State :=
  let s1 := s.closeRange d i
  match tabGet (s1.die d).polders i with
  | none => s1
  | some p =>
    if p.live = 0 then
      let s2 := s1.freePolder d i
      s2.send d (dieOfPeer p.lender) (64 * s2.ids) (.returned p.peer)
    else s1.updPolder d i fun p => { p with granule := p.granules }

/-- The page of a granule is no longer one of those that the reclaim has to leave: LIVE counts the others (R193). -/
def Polder.left (p : Polder) (granule : Nat) : Polder :=
  let l := p.todo.filter fun k => k.granule ≠ granule
  { p with todo := l, live := BitVec.ofNat 32 l.length }

/-- The page at which the engine of a reclaim stands, if it is still the one that the reclaim event found. -/
def State.current (s : State) (d : DieKey) (p : Polder) : Option LivePage :=
  (p.todo.find? fun k => k.granule = p.granule).bind (s.stillLive d p)

/-- The engine goes to the next of the live pages that the reclaim event found: it waits for a procedure that holds the page or a
sweep that has yet to do it; then it takes a frame, ends the range that the page breaks and begins the copy, or leaves the page
uncopied for want of a frame (R135, R190, R193, R195). -/
def State.nextPage (s : State) (d : DieKey) (i : Nat) : List LiveAt → State
  | [] => s.reclaimEnds d i
  | k :: rest =>
    match tabGet (s.die d).polders i with
    | none => s
    | some p => match s.stillLive d p k with
      | none => (s.updPolder d i fun p => p.left k.granule).nextPage d i rest
      | some g =>
        let reached := fun (x : State) (n : Nat) => x.updPolder d i fun p => { p with granule := n }
        if ((s.die d).heldAt p.job g.vrank (g.offp * 65536)).isSome then reached s k.granule
        else match s.unsweptIn d p.job g.vrank (g.offp * 65536) g.units with
          | some (r, page) => (reached s k.granule).askSweep r page
          | none => match (s.die d).takeFrames true g.units with
            | none => (reached s (k.granule + g.units)).nextPage d i rest
            | some (f, v) =>
              let s1 := s.setDie d { v with
                held := v.held ++ [⟨p.job, g.vrank, g.offp * 65536, BitVec.ofNat 2 g.size, .demotion i f⟩] }
              reached (if (joinRange p.range g).1.isSome then s1.closeRange d i else s1) k.granule

/-- The engine goes on from a granule. -/
def State.demoteFrom (s : State) (d : DieKey) (i granule : Nat) : State :=
  match tabGet (s.die d).polders i with
  | none => s
  | some p => s.nextPage d i (p.todo.filter fun k => granule ≤ k.granule)

/-- RECLAIM_EVENT (R193): the borrower's entry becomes RECLAIMING, LIVE counts its live pages, and the first is begun. The message
names its lease by the borrower's entry number (log 97). -/
def execReclaimEvent (s : State) : Host.Outcome State Fault Refusal :=
  .next (match s.subjectMsg with
    | none => s
    | some q => match q.body with
      | .reclaimEvent _ i =>
        let s1 := s.dropMsg q.id
        match tabGet (s1.die q.dst).polders i with
        | none => s1
        | some p =>
          if p.borrower && p.state = 2 && p.lender = peerOf q.src then
            let live := (s1.liveFrom q.dst p 0).map (·.toLiveAt)
            (s1.updPolder q.dst i fun p => { p with
              state := 3, live := BitVec.ofNat 32 live.length, todo := live, granule := 0 }).demoteFrom q.dst i 0
          else s1
      | _ => s)

/-- The page that a reclaim is copying: its hold and frame. -/
def Die.copying (d : Die) (i : Nat) : Option (Held × Nat) :=
  d.held.findSome? fun h => match h.by_ with
    | .demotion j f => if j = i then some (h, f) else none
    | _ => none

/-- Every 64 KiB page of a range counts as written for Barchan (R199). -/
def State.dirtyPages (s : State) (job : BitVec 32) (key off n : Nat) : State :=
  (List.range n).foldl (fun acc i => acc.markDirty job key (off + 65536 * i)) s

/-- The copy of a page ends: bytes, cells, leaf, invalidation, LIVE and the range (R193, R195). -/
def State.demote (s : State) (d : DieKey) (i : Nat) (p : Polder) (h : Held) (f : Nat) (g : LivePage) : State :=
  let new := setLeaf g.leaf 1 (leafMode g.leaf) 0 f (leafRset g.leaf)
  let s1 := ((s.movePage p.job d g.leaf new).setPhysWord d g.lpddr g.at_ new).invalPage d h.job h.key h.off
  let s2 := (s1.dirtyPages h.job h.key h.off g.units).updDie d fun v => { v with held := v.held.erase h }
  let (done, now) := joinRange p.range g
  let s3 := match done with
    | none => s2
    | some r => s2.rangeEvent i p false r
  (s3.updPolder d i fun p => { p.left g.granule with range := some now, granule := g.granule + g.units }).demoteFrom
    d i (g.granule + g.units)

/-- PAGE_DEMOTE_DONE (R193 to R195): the page being copied is done, an engine that waited for a page goes on, or one with no live page
left ends. The copy
reads the polder, so it needs the lender to serve it (R191); a page that an open snapshot has yet to copy is copied there
first (R273). -/
def execPageDemoteDone (die : DieKey) (entry : BitVec 4) (s : State) : Host.Outcome State Fault Refusal :=
  let i := entry.toNat
  .next (match tabGet (s.die die).polders i with
    | none => s
    | some p =>
      if !p.borrower || p.state ≠ 3 then s else
        match (s.die die).copying i with
        | none => if p.granule < p.granules || p.todo.isEmpty then s.demoteFrom die i p.granule else s
        | some (h, f) =>
          if s.translatedOut h.job h.key || s.dieHeld die then s else
            match s.current die p with
            | none =>
              let s1 := s.updDie die fun v => { v.giveFrames true f (sizeUnits h.size.toNat) with held := v.held.erase h }
              (s1.updPolder die i fun p => p.left p.granule).demoteFrom die i (p.granule + 1)
            | some g =>
              let lender := dieOfPeer p.lender
              if !s.reach die lender (leafFrame g.leaf * 65536) || !(s.die lender).lends (peerOf die) (leafFrame g.leaf) then s
              else match s.uncopiedIn die h.job h.key h.off g.units with
                | some (r, page) => s.askSnap r page
                | none => s.demote die i p h f g)

/-- RETURN_MESSAGE (R190): one that comes after DLEFT has reached 0 finds an entry that is to be FENCED, and changes nothing. The
message names its lease by the lender's entry number (log 97). -/
def execReturnMessage (s : State) : Host.Outcome State Fault Refusal :=
  .next (match s.subjectMsg with
    | none => s
    | some q => match q.body with
      | .returned i =>
        let s1 := s.dropMsg q.id
        match tabGet (s1.die q.dst).polders i with
        | none => s1
        | some p =>
          if p.serves && p.state = 3 && p.borrow = peerOf q.src then
            (s1.updPolder q.dst i fun p => { p with state := 4, dleft := 0 }).leaseNote q.dst i p 4
          else s1
      | _ => s)

/-! ### Deadline, fence, poison -/

/-- A request that a polder leaf of the borrower has sent to a region of a lender. -/
def Polder.asked (p : Polder) (via : DieKey) (addr : Nat) : Bool := peerOf via = p.borrow && p.covers (addr % 2 ^ 40 / 65536)

/-- The body of a request to a region that needs no lease any more. -/
def Polder.letIn (p : Polder) : Body → Body
  | .access a => .access (open_ a)
  | .polder a n => .polder (open_ a) n
  | .cellReq a e => .cellReq (cell a) e
  | .cellRel a e => .cellRel (cell a) e
  | b => b
where
  open_ (a : Access) : Access := match a.phys with
    | some (addr, true) => if p.asked a.via addr then { a with phys := some (addr, false) } else a
    | _ => a
  cell (a : CellAddr) : CellAddr := match a.phys with
    | some (addr, true) => if p.asked a.via addr then { a with phys := some (addr, false) } else a
    | _ => a

/-- Requests that have reached the lender before the fence of a region are served (R197). -/
def State.letIn (s : State) (d : DieKey) (p : Polder) : State :=
  { s with msgs := s.msgs.map fun m => if m.arrived && m.dst = d then { m with body := p.letIn m.body } else m }

/-- RECLAIM_DEADLINE (R197): DLEFT is 0, and the lender fences the region. -/
def execReclaimDeadline (die : DieKey) (entry : BitVec 4) (s : State) : Host.Outcome State Fault Refusal :=
  .next (match tabGet (s.die die).polders entry.toNat with
    | none => s
    | some p =>
      if !p.borrower && p.state = 3 && p.dleft = 0 then
        let s1 := (s.updPolder die entry.toNat fun p => { p with state := 5 }).leaseNote die entry.toNat p 5
        s1.send die (dieOfPeer p.borrow) (64 * s1.ids) (.fence p.peer)
      else s)

/-- The ranges of a list of pages, in order (R195, R197). -/
def rangesOf : Option (Nat × Nat × Nat) → List LivePage → List (Nat × Nat × Nat)
  | none, [] => []
  | some r, [] => [r]
  | r, g :: rest => match joinRange r g with
    | (some done, now) => done :: rangesOf (some now) rest
    | (none, now) => rangesOf (some now) rest

/-- A borrower-side entry is fenced: the copy in progress is abandoned, and every live page still uncopied is poisoned
(R197, R198). -/
def State.fenceBorrower (s : State) (d : DieKey) (i : Nat) : State :=
  match tabGet (s.die d).polders i with
  | none => s
  | some p =>
    if !p.borrower || !p.live? then s else
      let s1 := match (s.die d).copying i with
        | none => s
        | some (h, f) => s.updDie d fun v => { v.giveFrames true f (sizeUnits h.size.toNat) with held := v.held.erase h }
      let s2 := (s1.closeRange d i).updPolder d i fun p => { p with state := 5 }
      (rangesOf none (s2.liveFrom d p 0)).foldl (fun acc r => acc.rangeEvent i p true r) s2

/-- FENCE_MESSAGE (R197). The message names its lease by the borrower's entry number, and only its sender is checked (log 97). -/
def execFenceMessage (s : State) : Host.Outcome State Fault Refusal :=
  .next (match s.subjectMsg with
    | none => s
    | some q => match q.body with
      | .fence i =>
        let s1 := s.dropMsg q.id
        match tabGet (s1.die q.dst).polders i with
        | none => s1
        | some p => if p.lender = peerOf q.src then s1.fenceBorrower q.dst i else s1
      | _ => s)

/-- A lost package's leases at one die (R198): its ACTIVE and RECLAIMING entries become FENCED, the borrower-side ones with their
live pages poisoned. Requests that have reached a lender are served, unless DLEFT is 0 already (R197). An entry that is only offered
ends with the offer (R190). -/
def State.loseLeases (s : State) (d : DieKey) (lost : Pkg) : State :=
  (s.die d).polders.foldl (fun (acc : State) e => match tabGet (acc.die d).polders e.1 with
    | none => acc
    | some p =>
      if p.borrower then
        if pkgOf (dieOfPeer p.lender) = lost then acc.fenceBorrower d e.1 else acc
      else if pkgOf (dieOfPeer p.borrow) = lost && p.live? then
        ((if p.serves then acc.letIn d p else acc).updPolder d e.1 fun p => { p with state := 5 }).leaseNote d e.1 p 5
      else acc) s

/-- A reclaim that has begun on a rank's pages has yet to pass one of them (R199). -/
def State.reclaimOpen (s : State) (r : Rank) : Bool :=
  (s.die r.home).polders.any fun e =>
    e.2.borrower && e.2.state = 3 && e.2.job = r.job &&
      ((e.2.todo.filter fun k => e.2.granule ≤ k.granule).filterMap (s.stillLive r.home e.2)).any fun g => g.vrank = r.vrank.toNat

end Sys2Proof.Machine
end

