-- ==== Sys2Proof/Machine/Fetch.lean ====
section
/-! DEFINITION. How a stream reaches a word: the slip bound (R48), the one read of each word (R303), recognition of words
of other tags (R45), branch outcomes (R50), and the interlock of registers (R47). -/

namespace Sys2Proof.Machine

/-- What every stream recognises in a word, from tag, major and fn (R45). -/
inductive Kind where
  | branch
  | ordering
  | exit
  | plain
  deriving DecidableEq, Repr

/-- Recognition (R45): the branch words (R50), ACQ, LDG.ACQ and FENCE (R206, R212), STEP, and EXIT. -/
def recognise (w : IWord) : Kind :=
  let tag := tagOf w
  let major := (majorOf w).toNat
  if major = 0x39 then .ordering
  else if tag = .x && major = 0x29 then .branch
  else if tag ≠ .c then .plain
  else if 0x0C ≤ major && major ≤ 0x15 then .branch
  else if major = 0x24 || major = 0x2B then .ordering
  else if major = 0x1C && w.extractLsb' 0 6 = 0 then .ordering
  else if major = 0x1C && w.extractLsb' 0 6 = 2 then .exit
  else .plain

/-- The stream passes a branch word with its outcome: two delay slots, then the target (R51). -/
def Strand.passBranch (m : Strand) (t : Stream) (target : Word) : Strand :=
  let p := m.stream t
  (m.setStream t { pc := p.pc + 4, pos := p.pos + 1, delay := 2, target := target, wait := .none }).prune

/-- What a stream's turn comes to before any word is executed. -/
inductive Prep where
  | settled (s : State)
  | run (i : Instr) (s : State)
  deriving DecidableEq, Repr

/-- The word at a stream's position, read once for all four streams (R303), through the die map as it is then: the stream that leads
reads text behind a write of DMAPd that another stream has still to make through the old map (log 100). -/
def State.fetch (s : State) (u : Nat) (m : Strand) (t : Stream) : State × Res WalkWord :=
  let p := m.stream t
  match m.wordAt p.pos with
  | some w => (s, .ok w)
  | none =>
    if fld p.pc 56 52 = 31 then (s, .fault cADDR_RANGE) else
      match s.clientOf m with
      | none => (s, .stall .none)
      | some c => match s.readVa c p.pc 4 with
        | (s1, .fault e) => (s1, .fault e)
        | (s1, .stall k) => (s1, .stall k)
        | (s1, .ok v) =>
          let w : WalkWord := { pos := p.pos, addr := p.pc, bits := BitVec.ofNat 32 v, rot := m.rrb, done := false }
          (s1.upd u fun m => { m with walk := m.walk ++ [w] }, .ok w)

/-- A stream meets a word: a word of its own tag is decoded and run, a word of another tag is passed (R45). A branch word in a
delay slot has raised SLOT (R316); when it has been skipped (R250) it is passed as any other. -/
def State.meet (s : State) (u : Nat) (m : Strand) (t : Stream) (w : WalkWord) : Prep :=
  if tagOf w.bits = t then
    match decode w.bits with
    | none => .run (.illegalWord w.bits) s
    | some i => if m.hazard t i then .settled s else .run i s
  else match recognise w.bits with
    | .plain => .settled (s.setStrand u (m.pass t))
    | .exit => if w.done then .settled (s.setStrand u (m.pass t)) else .settled s
    | .ordering => if w.done then .settled (s.setStrand u (m.pass t)) else .settled s
    | .branch => if (m.stream t).delay ≠ 0 then .settled (if w.done then s.setStrand u (m.pass t) else s) else match m.boq.find? fun (b : BranchOutcome) => b.pos = (m.stream t).pos with
      | none => .settled s
      | some b => .settled (s.setStrand u (m.passBranch t b.target))

/-- The boundary that the strand's STEP has begun is not over: no later word of the strand issues (R426). -/
def State.stepOpen (s : State) (u : Nat) (m : Strand) : Bool := (s.rank? m.rank).any fun r => r.stepping = some u

/-- The stream waits for the slower streams of its strand (R48); a word that it has partly done ends all the same when a stop waits
for it (R236). -/
def Strand.slipWaits (m : Strand) (t : Stream) : Bool := !m.slipOk t && m.noted.isEmpty

/-- A stream's turn. -/
def State.prepare (s : State) (u : Nat) (t : Stream) : Prep :=
  match s.strand u with
  | none => .settled s
  | some m =>
    if !m.mayRun t || s.stepOpen u m || (m.stream t).wait ≠ .none || m.slipWaits t then .settled s else
      match s.fetch u m t with
      | (s1, .fault e) => .settled (s1.raise u t e (m.stream t).pc 0)
      | (s1, .stall _) => .settled s1
      | (s1, .ok w) => match s1.strand u with
        | none => .settled s1
        | some m1 => s1.meet u m1 t w

end Sys2Proof.Machine
end

