-- ==== Sys2Proof/Machine/System.lean ====
section
/-! DEFINITION. The C system family and the stops of a strand: STEP, YIELD, EXIT, TRIG, GBAR, TRAP, SYS, ENQ, the steps
that end their waits, and ILLEGAL (R57 to R62, R64, R217, R236, R305, R373, R375, R382, R426, R432, R444, R478). -/

namespace Sys2Proof.Machine

/-! ### STEP, EXIT -/

/-- STEP (R426): waits for the strand's earlier work; the boundary is the step STEP_BOUNDARY. -/
def execStep (s : State) : Host.Outcome State Fault Refusal :=
  onWord s .c true false fun u _ => s.waitFor u .c .step

/-- EXIT (R58, R375): waits; the end is the step EXIT_RETIRE. -/
def execExit (s : State) : Host.Outcome State Fault Refusal :=
  onWord s .c true false fun u _ => s.waitFor u .c .exit

/-- What EXIT and STEP wait for (R58, R426): every stream has passed the earlier words, they have performed their
effects, every asynchronous command has completed, and every remote write is made or posted. -/
def State.finished (s : State) (u : Nat) (m : Strand) : Bool := s.quiet u m .c && m.cmds.isEmpty

/-- A strand that stands at EXIT and waits for nothing more. -/
def State.exitDue (s : State) (loc : Loc) : Option Nat :=
  match s.onBank loc.toNat with
  | none => none
  | some (u, m) => if m.c.wait = .exit && m.canIssue && s.finished u m then some u else none

/-- A strand that End has ended, which has left its gang already, and whose remote writes are all made or posted (R243). -/
def State.endedDue (s : State) (loc : Loc) : Option Nat :=
  match s.onBank loc.toNat with
  | none => none
  | some (u, m) => if m.state = .ended && !s.writesOut u then some u else none

/-- EXIT_RETIRE (R58, R61, R243). A lock word that the end changes waits for its page to be swept or copied first (R135, R273). -/
def execExitRetire (loc : Loc) (s : State) : Host.Outcome State Fault Refusal :=
  .next (match s.exitDue loc with
    | some u => (s.endWait u).getD (s.endStrand u)
    | none => match s.endedDue loc with
      | some u => (s.reportErrors u).freeBank u
      | none => s)

/-! ### YIELD -/

/-- A bank is parked: the word has retired, and a HELD lease is LAPSED (R478). -/
def Strand.park (m : Strand) : Strand :=
  { m.retire .c with
    state := .parked Config.parkCycles
    lease := match m.lease with
      | .held _ _ => .lapsed
      | l => l }

/-- YIELD (R478). -/
def execYield (s : State) : Host.Outcome State Fault Refusal :=
  onWord s .c false false fun u m =>
    { s.setStrand u m.park with array := s.array.filter fun e => e.2 ≠ u }

/-! ### TRIG, GBAR -/

/-- TRIG (R60, R444): waits for earlier effects; only a strand's first TRIG counts. -/
def execTrig (s : State) : Host.Outcome State Fault Refusal :=
  onWord s .c false false fun u m =>
    if !s.quiet u m .c then s
    else if m.trig then s.done u .c
    else
      let s1 := s.setStrand u { m.retire .c with trig := true }
      (s1.updGang m.gang fun g => { g with trigs := g.trigs ++ [u] }).gangTrigger m.gang

/-- GBAR (R62, R382): waits for the other strands of the gang; alone, it completes at once. -/
def execGbar (s : State) : Host.Outcome State Fault Refusal :=
  onWord s .c false false fun u m =>
    match s.gang? m.gang with
    | none => s
    | some g => if g.live.all (fun v => v = u) then s.done u .c else s.waitFor u .c .gbar

/-- GBAR_EPISODE_COMPLETE (R62, R382): every strand of the gang that has not ended stands at its GBAR. -/
def execGbarEpisodeComplete (gang : Nat) (s : State) : Host.Outcome State Fault Refusal :=
  .next (match s.gang? gang with
    | none => s
    | some g =>
      let at_ := fun (u : Nat) => match s.strand u with
        | some m => m.c.wait = .gbar && m.place.isSome
        | none => false
      if g.live.all at_ then g.live.foldl (fun acc u => acc.done u .c) s else s)

/-! ### TRAP, SYS, ILLEGAL -/

/-- TRAP and SYS (R432): the strand stops with FPC_C at the next word; the word retires with the stop. -/
def State.trapStop (s : State) (u : Nat) (m : Strand) (cause : BitVec 8) (code : BitVec 24) : State :=
  (s.upd u fun k => { k with noted := k.noted ++
    [{ sync := true, pos := m.c.pos, pc := m.c.advance.pc, slot := 0, stream := .c, cause := cause, addr := 0
       prog := fprog 6 code.toNat }] }).takeFault u

/-- TRAP (R248, R432). -/
def execTrap (c : BitVec 24) (s : State) : Host.Outcome State Fault Refusal :=
  onWord s .c true false fun u m => s.trapStop u m cTRAP c

/-- SYS (R248, R432). -/
def execSys (c : BitVec 24) (s : State) : Host.Outcome State Fault Refusal :=
  onWord s .c true false fun u m => s.trapStop u m cSYS c

/-- A word of the stream's own tag that is not allocated, or that has a reserved field not zero (R305, step 1). -/
def execIllegalWord (w : IWord) (s : State) : Host.Outcome State Fault Refusal :=
  onWord s (tagOf w) false false fun u _ => s.raise u (tagOf w) cILLEGAL 0 0

/-- STRAND_FAULT_STOP (R236): a stop that has waited for words in flight, or a command's fault, is recorded. -/
def execStrandFaultStop (loc : Loc) (s : State) : Host.Outcome State Fault Refusal :=
  .next (match s.onBank loc.toNat with
    | none => s
    | some (u, _) => s.takeFault u)

/-! ### ENQ -/

/-- A push of a record's address (R217): the status, 0 pushed and 1 full. -/
def State.push (s : State) (rank : Nat) (q : BitVec 2) (e : QueueEntry) : State × BitVec 8 :=
  match s.rank? rank with
  | none => (s, 1)
  | some r =>
    let l := vget r.queues [] q.toNat
    if l.length ≥ 256 then (s, 1)
    else (s.setRank rank { r with queues := vset r.queues q.toNat (l ++ [e]) }, 0)

/-- ENQ (R373). -/
def execEnq (d q : Field) (n : BitVec 2) (s : State) : Host.Outcome State Fault Refusal :=
  onWord s .c true false fun u m =>
    let a := m.reg q
    if fld a 63 57 ≠ 0 || fld a 56 52 = 31 then s.raise u .c cADDR_RANGE a 0
    else if a.toNat % 64 ≠ 0 then s.raise u .c cALIGN a 0
    else if !s.quiet u m .c then s
    else
      let out := s.push m.rank n ⟨a, m.priv, false⟩
      out.1.upd u fun k => (k.setReg d (wd out.2.toNat)).retire .c

end Sys2Proof.Machine
end

