-- ==== Sys2Proof/Machine/Ready.lean ====
section
/-! DEFINITION. Which strands are ready (R63), and the end of a parked bank's wait (R479). -/

namespace Sys2Proof.Machine

/-- The meaning of a word that something other than its operands may hold: what it orders itself after (R55, R144, R177, R201, R205,
R206, R212), the branch outcome queue (R50), a page that is moved, swept or copied first (R135, R173, R273), requests that are held
(R257), or a bank that drains under another strand. -/
def heldMeaning : Instr → Option (State → Host.Outcome State Fault Refusal)
  | .b o => some (execB o)
  | .call o => some (execCall o)
  | .jr a => some (execJr a)
  | .loop a o => some (execLoop a o)
  | .beq a b o => some (execBeq a b o)
  | .bne a b o => some (execBne a b o)
  | .blt a b o => some (execBlt a b o)
  | .bge a b o => some (execBge a b o)
  | .bltu a b o => some (execBltu a b o)
  | .bgeu a b o => some (execBgeu a b o)
  | .enq d q n => some (execEnq d q n)
  | .ldg d a sz o => some (execLdg d a sz o)
  | .stg d a sz o => some (execStg d a sz o)
  | .ldgAcq d a o => some (execLdgAcq d a o)
  | .stgRel d a o => some (execStgRel d a o)
  | .ldfK d a sz o => some (execLdfK d a sz o)
  | .ldfC d a sz o => some (execLdfC d a sz o)
  | .waitfK p q => some (execWaitfK p q)
  | .waitfC p q => some (execWaitfC p q)
  | .amo d a b u w o => some (execAmo d a b u w o)
  | .cas d a b w => some (execCas d a b w)
  | .acq p => some (execAcq p)
  | .acqSh p => some (execAcqSh p)
  | .rel p => some (execRel p)
  | .bind p q r e => some (execBind p q r e)
  | .lend d q => some (execLend d q)
  | .reclaim d q => some (execReclaim d q)
  | .tlbi p => some (execTlbi p)
  | .tlbiSp p => some (execTlbiSp p)
  | .pgsplit d a => some (execPgsplit d a)
  | .pgcoll d a b => some (execPgcoll d a b)
  | .pgmig d a b => some (execPgmig d a b)
  | .fence t f => some (execFence t f)
  | .sigk t k n => some (execSigk t k n)
  | .waitk t k n => some (execWaitk t k n)
  | .arinit t p q x => some (execArinit t p q x)
  | .arwait t p x h => some (execArwait t p x h)
  | .fset t p q x => some (execFset t p q x)
  | .fclr t p q x => some (execFclr t p q x)
  | .tld n b o => some (execTld n b o)
  | .tldt n b o => some (execTldt n b o)
  | .tldk n b o => some (execTldk n b o)
  | .cbld b o => some (execCbld b o)
  | .gather p q r x l => some (execGather p q r x l)
  | .gred p q r x l f o => some (execGred p q r x l f o)
  | .cpy sz p q r x => some (execCpy sz p q r x)
  | .cpyt sz p q r x => some (execCpyt sz p q r x)
  | .tmov sz p q x => some (execTmov sz p q x)
  | .bmz o => some (execBmz o)
  | .aalloc d a => some (execAalloc d a)
  | .adrain p q => some (execAdrain p q)
  | .tst n b o => some (execTst n b o)
  | .tstk n b o => some (execTstk n b o)
  | .ast p q x => some (execAst p q x)
  | .scat p q r x l => some (execScat p q r x l)
  | .scata p q r x k l => some (execScata p q r x k l)
  | .upd p q r x f l => some (execUpd p q r x f l)
  | .car p q r x => some (execCar p q r x)
  | .crs p q r x => some (execCrs p q r x)
  | .cag p q r x => some (execCag p q r x)
  | .cbc p q r x => some (execCbc p q r x)
  | .trig => some execTrig
  | _ => none

/-- The wait of a word that has done nothing yet and holds no issue slot (R344, R423, R475, R476). -/
def Wait.unissued : Wait → Bool
  | .none => true
  | .token => true
  | .room => true
  | .fe => true
  | .arwait => true
  | _ => false

/-- A word that would be executed now would only go on waiting: its stream stays at it, with nothing asked for, no fault and no more
of it done. -/
def State.stuck (s : State) (u : Nat) (m : Strand) (t : Stream) (f : State → Host.Outcome State Fault Refusal) : Bool :=
  match f { s with cur := some (u, t) } with
  | .next x => (x.strand u).any fun k =>
      (k.stream t).pos = (m.stream t).pos && (k.stream t).wait.unissued && k.noted.isEmpty && k.prog = m.prog
  | _ => false

/-- A word that takes a slot of the command table (R358). -/
def takesSlot : Instr → Bool
  | .cpy .. => true
  | .cpyt .. => true
  | .car .. => true
  | .crs .. => true
  | .cag .. => true
  | .cbc .. => true
  | _ => false

/-- The word is held by something other than its operands. A full command table is waited for as an operand is (R358). -/
def State.heldBack (s : State) (u : Nat) (m : Strand) (t : Stream) (i : Instr) : Bool :=
  if m.hazard t i then t = .s && sMemory i && m.asts.any fun a => !a.stopped && a.pos < m.s.pos
  else if takesSlot i && m.streamQuiet t && (s.freeSlot m).isNone then false
  else (heldMeaning i).any (s.stuck u m t)

/-- The word waits for a value that it returns or for no answer at all, so that the stream's next word waits at most on an
operand (R63). -/
def operandWait : Instr → Bool
  | .rel _ => false
  | .ldgAcq _ _ _ => false
  | .stgRel _ _ _ => false
  | _ => true

/-- A stream can issue a word, or waits on an operand only, as one does that waits for a segment to be bound (R63, R157, R479). -/
def State.streamReady (s : State) (u : Nat) (m : Strand) (t : Stream) : Bool :=
  match (m.stream t).wait, m.wordAt (m.stream t).pos with
  | .none, none => m.slipOk t
  | .none, some w => m.slipOk t &&
    if tagOf w.bits = t then match decode w.bits with
      | none => true
      | some i => !s.heldBack u m t i
    else match recognise w.bits with
      | .plain => true
      | .exit => w.done
      | .ordering => w.done
      | .branch => if (m.stream t).delay ≠ 0 then w.done else m.boq.any fun b => b.pos = (m.stream t).pos
  | .segment _, _ => true
  | .reply _, some w => (decode w.bits).all operandWait
  | _, _ => false

/-- A strand is ready (R63). None is while a boundary that its STEP has begun is not over (R426). -/
def State.ready (s : State) (u : Nat) (m : Strand) : Bool :=
  m.canIssue && !s.stepOpen u m &&
    (s.streamReady u m .c || s.streamReady u m .l || s.streamReady u m .x || s.streamReady u m .s)

/-- BANK_UNPARK (R479): after 256 cycles, or when no other bank of the core is ready. -/
def execBankUnpark (loc : Loc) (s : State) : Host.Outcome State Fault Refusal :=
  .next (match s.onBank loc.toNat with
    | none => s
    | some (u, m) => match m.state with
      | .parked cycles =>
        let others := s.strands.any fun e => e.1 ≠ u && s.ready e.1 e.2 && match e.2.place with
          | some l => locCore l = locCore loc.toNat
          | none => false
        if cycles = 0 || !others then s.setStrand u { m with state := .run } else s
      | _ => s)

end Sys2Proof.Machine
end

