-- ==== Sys2Proof/Machine/BankFrame.lean ====
section
/-! DEFINITION. What a context bank holds beside its units, as words: the bank frame of a context image (R92, R232) and the upper
half of a bank in the state window (R96, R295). The spec names the contents and gives no layout; the layout is the model's
(log 5). -/

namespace Sys2Proof.Machine

/-- A block of `n` words: those of a list, and zeros after them. -/
def block (n : Nat) (l : List Word) : List Word := (l ++ List.replicate (n - l.length) 0).take n

/-- A number cut into 64-bit words. -/
def wordsOf (n v : Nat) : List Word := (unpackNat 64 n v).map wd

/-- The state of a bank (R96): 0 FREE, 1 RUN, 2 WAIT, 3 PARKED, 4 FAULTED. A strand in RUN none of whose streams is ready is
in WAIT (log 5). -/
def State.bankState (s : State) (u : Nat) (m : Strand) : Nat :=
  match m.state with
  | .run => if s.ready u m then 1 else 2
  | .parked _ => 3
  | .faulted => 4
  | .ended => 2

/-- A slot of the asynchronous command table in 16 words: state and operation, addresses, counter, shape, next chunk and the
chunks above it, header of a collective with its FMT, WIRE and IEEE bits. -/
def Cmd.words (k : Cmd) : List Word :=
  let st := match k.state with
    | .running => 0
    | .stopped => 1
    | .faulted => 2
  let op : Nat × Nat × Nat := match k.op with
    | .cpy n => (0, n, 0)
    | .cpyt w h sp dp => (1, w + h * 2 ^ 16, sp + dp * 2 ^ 32)
    | .car => (2, 0, 0)
    | .crs => (3, 0, 0)
    | .cag => (4, 0, 0)
    | .cbc => (5, 0, 0)
  let head := match k.head with
    | none => []
    | some h => [wd (h.comm + h.seq.toNat * 2 ^ 32),
        wd (h.count + h.op.toNat * 2 ^ 32 + h.root * 2 ^ 40 + b2n h.fmt * 2 ^ 56 + b2n h.wire * 2 ^ 57 + b2n h.ieee * 2 ^ 58)]
  block 16 ([wd (1 + st * 2 + op.1 * 8 + k.stream.tag.toNat * 64 + b2n k.reloc * 256), k.dst, k.src, k.counter, wd op.2.1, wd op.2.2
    , wd k.next, wd k.aheadMask] ++ head)

/-- Program counters, bank state, general registers and the single CSRs, in 128 words. -/
def State.coreWords (s : State) (u : Nat) (m : Strand) : List Word :=
  block 8 [m.c.pc, m.l.pc, m.x.pc, m.s.pc, wd (s.bankState u m)] ++ block 64 (0 :: m.g.toList.drop 1) ++
  block 56 ([0x018, 0x019, 0x01A, 0x01B, 0x010, 0x011, 0x012, 0x017, 0x014, 0x015, 0x01E].map (s.csrStrand u m) ++
    [wd (m.rnd.toNat + b2n m.ieee * 16), wd (m.lfLane.toNat + b2n m.lfAuto * 2 ^ 15), wd m.stepv.toNat,
     wd (m.errq.length + b2n m.errOvf * 256)])

/-- The entries of a strand's error queue, two words each, in 128 words. -/
def errqWords (m : Strand) : List Word :=
  block 128 (m.errq.flatMap fun e => [e.addr, wd (e.peer.toNat + e.cause.toNat * 2 ^ 16 + 2 ^ 31)])

/-- The words of a strand's bank, 4,096 of them: the 128 of `coreWords`, tile configurations and status words, binding table,
die map, fault frame, error queue, mask stack, lane LFSRs, command table, branch outcome queue. -/
def State.bankWords (s : State) (u : Nat) (m : Strand) : List Word :=
  s.coreWords u m ++ m.tcfg.toList ++ m.tstat.toList ++ m.bindA.toList ++ m.bindB.toList ++ m.dmap.toList ++
  block 32 m.frame.toList ++
  errqWords m ++ block 128 (m.masks.flatMap fun v => wordsOf 16 v.toNat) ++ wordsOf 512 m.lanes.toNat ++
  (List.range 48).flatMap (fun i => match tabGet m.cmds i with
    | none => block 16 []
    | some k => k.words) ++
  block 2048 (m.boq.flatMap fun b => [wd (b2n b.taken + b.pos * 2), b.target])

/-- What a strand takes from its bank frame when it is switched in: program counters, general registers, step view, tile
configurations and status words, and fault frame; the rest, part of which changes while the strand is away (grants, die map,
errors), has stayed with it (log 5). -/
def Strand.readFrame (m : Strand) (w : Nat → Word) : Strand :=
  let take := fun {n : Nat} (_ : Vector Word n) (at_ : Nat) => (Vector.ofFn fun (i : Fin n) => w (at_ + i.val) : Vector Word n)
  { m with
    c := { m.c with pc := w 0 }
    l := { m.l with pc := w 1 }
    x := { m.x with pc := w 2 }
    s := { m.s with pc := w 3 }
    g := take m.g 8
    stepv := (w 85).setWidth 48
    tcfg := take m.tcfg 128
    tstat := take m.tstat 192
    frame := take m.frame 416 }

/-- Where the bank frame of a member lies in a context image (R232). -/
def Rank.bankFrame (r : Rank) (image member : Nat) : Word := r.imageVa image (member * 0x8000)

/-- Saves a strand's bank frame; an image that is not mapped keeps nothing (R160, R232). It waits while the frame's page is held. -/
def State.saveFrame (s : State) (u : Nat) (m : Strand) (image : Nat) : Try State :=
  match s.rank? m.rank with
  | none => .ok s
  | some r => match s.access (r.client m.rank) (r.bankFrame image m.member) 0x8000 true with
    | (s1, .ok t) => .ok (s1.wr t.addr 0x8000 (packNat 64 ((s.bankWords u m).map BitVec.toNat)))
    | (s1, .fault _) => .ok s1
    | (s1, .stall _) => .error s1

/-- Loads a strand's bank frame; from an image that is not mapped nothing comes back. It waits while the frame's page is held. -/
def State.loadFrame (s : State) (m : Strand) (image : Nat) : Try (State × Strand) :=
  match s.rank? m.rank with
  | none => .ok (s, m)
  | some r => match s.access (r.client m.rank) (r.bankFrame image m.member) 0x8000 false with
    | (s1, .ok t) => .ok (s1, m.readFrame fun i => wd (s1.rd (t.addr + 8 * i) 8))
    | (s1, .fault _) => .ok (s1, m)
    | (s1, .stall _) => .error s1

end Sys2Proof.Machine
end

