-- ==== Sys2Proof/Machine/Shadow.lean ====
section
/-! DEFINITION. The shadow store of a cluster (R233): saving a strand's tiles and banks, write-back of an owner's image, and
loading. -/

namespace Sys2Proof.Machine

/-- Where a tile slot and an accumulator bank of a gang core lie in a context image (R232). -/
def tileOff (gcore slot : Nat) : Nat := 0x100000 + gcore * 0xC0000 + slot * 4096
def bankOff (gcore name : Nat) : Nat := 0x140000 + gcore * 0xC0000 + name * 8192

/-- Writes a saved tile or bank of `n` bytes back to its owner's context image. An image that is not mapped loses it: R232
makes the mapping software's duty. It waits while the frame's page is held. -/
def State.writeBack (s : State) (rank image off n v : Nat) : Try State :=
  match s.rank? rank with
  | none => .ok s
  | some r => match s.access (r.client rank) (r.imageVa image off) n true with
    | (s1, .ok t) => .ok (s1.wr t.addr n v)
    | (s1, .fault _) => .ok s1
    | (s1, .stall _) => .error s1

/-- Writes back a tile slot of the shadow store and frees it. -/
def State.dropTile (s : State) (k : Nat) : Try State :=
  match tabGet s.shadowTile k with
  | none => .ok s
  | some e => (s.writeBack e.rank e.image (tileOff e.core e.name) 4096 e.data.toNat).map fun x =>
      { x with shadowTile := tabDel x.shadowTile k }

/-- Writes back an accumulator slot of the shadow store and frees it. -/
def State.dropAcc (s : State) (k : Nat) : Try State :=
  match tabGet s.shadowAcc k with
  | none => .ok s
  | some e => (s.writeBack e.rank e.image (bankOff e.core e.name) 8192 e.data.toNat).map fun x =>
      { x with shadowAcc := tabDel x.shadowAcc k }

/-- Writes back every slot in turn. -/
def State.dropAll (s : State) (drop : State → Nat → Try State) : List Nat → Try State
  | [] => .ok s
  | k :: r => match drop s k with
    | .error x => .error x
    | .ok s1 => s1.dropAll drop r

/-- The accumulator names that a strand owns on a core. -/
def State.ownedBanks (s : State) (core u : Nat) : List Nat :=
  (List.range 64).filter fun j => (tabGet s.accOwner (unitKey core j)).any fun o => o.uid = u

/-- Saves a strand's tiles and banks to the shadow slots of its core; the slots' former owners are written back first. -/
def State.saveUnits (s : State) (u : Nat) (m : Strand) (g : Gang) (image core : Nat) : Try State :=
  let gcore := m.member / g.spc
  let banks := s.ownedBanks core u
  match s.dropAll State.dropTile ((natRange m.base m.size).map (unitKey core)) with
  | .error x => .error x
  | .ok s1 => match s1.dropAll State.dropAcc (banks.map (unitKey core)) with
    | .error x => .error x
    | .ok s2 =>
      let tiles := (natRange m.base m.size).foldl (fun (t : Tab (Shadow 32768)) k =>
        tabPut t (unitKey core k) ⟨m.rank, m.gang, image, gcore, k, tabAt s2.tiles 0 (unitKey core k)⟩) s2.shadowTile
      let accs := banks.foldl (fun (t : Tab (Shadow 65536)) j =>
        tabPut t (unitKey core j) ⟨m.rank, m.gang, image, gcore, j, tabAt s2.accs 0 (unitKey core j)⟩) s2.shadowAcc
      .ok { s2 with
        shadowTile := tiles
        shadowAcc := accs
        accOwner := s2.accOwner.filter fun e => e.2.uid ≠ u }

/-- The bytes of a saved unit in its context image; a value left open if the image cannot be read (log 4). It waits while the
image's page is held. -/
def State.imageUnit (s : State) (g : Gang) (off n : Nat) : Try (State × Option Nat) :=
  match s.rank? g.rank, g.image with
  | some r, some j => match s.readVa (r.client g.rank) (r.imageVa j off) n with
    | (s1, .ok v) => .ok (s1, some v)
    | (s1, .fault _) => .ok ({ s1 with nfree := s1.nfree + 1 }, none)
    | (s1, .stall _) => .error s1
  | _, _ => .ok ({ s with nfree := s.nfree + 1 }, none)

/-- A tile of a context image is loaded into a slot of the shadow store, whose former owner is written back first (R233). -/
def State.loadTile (s : State) (gid : Nat) (g : Gang) (gcore name k : Nat) : Try State :=
  match s.dropTile k with
  | .error x => .error x
  | .ok s1 => (s1.imageUnit g (tileOff gcore name) 4096).map fun x =>
      let v := match x.2 with
        | some v => BitVec.ofNat 32768 v
        | none => Config.freeTile s1.nfree
      { x.1 with shadowTile := tabPut x.1.shadowTile k ⟨g.rank, gid, g.image.getD 0, gcore, name, v⟩ }

/-- A bank of a context image is loaded into a slot of the shadow store, whose former owner is written back first (R233). -/
def State.loadBank (s : State) (gid : Nat) (g : Gang) (gcore name k : Nat) : Try State :=
  match s.dropAcc k with
  | .error x => .error x
  | .ok s1 => (s1.imageUnit g (bankOff gcore name) 8192).map fun x =>
      let v := match x.2 with
        | some v => BitVec.ofNat 65536 v
        | none => Config.freeBank s1.nfree
      { x.1 with shadowAcc := tabPut x.1.shadowAcc k ⟨g.rank, gid, g.image.getD 0, gcore, name, v⟩ }

/-- The slot of the shadow store that has a saved tile of a gang core. Whatever cluster it belongs to, the tile is taken out of it: how the
units of a gang that resumes on another cluster get there R233 does not say (log 115). -/
def State.tileSlot (s : State) (gid gcore name : Nat) : Option (Nat × Shadow 32768) :=
  s.shadowTile.find? fun e => e.2.gang = gid && e.2.core = gcore && e.2.name = name

/-- As `tileSlot`, for a bank. -/
def State.bankSlot (s : State) (gid gcore name : Nat) : Option (Nat × Shadow 65536) :=
  s.shadowAcc.find? fun e => e.2.gang = gid && e.2.core = gcore && e.2.name = name

/-- A saved tile of a gang core leaves the shadow store; one that is not there is first loaded into slot `k` (R233). -/
def State.savedTile (s : State) (gid : Nat) (g : Gang) (gcore name k : Nat) : Try (State × BitVec 32768) :=
  (if (s.tileSlot gid gcore name).isSome then .ok s else s.loadTile gid g gcore name k).map fun x =>
    match x.tileSlot gid gcore name with
    | some (j, e) => ({ x with shadowTile := tabDel x.shadowTile j }, e.data)
    | none => (x, 0)

/-- As `savedTile`, for an accumulator bank. -/
def State.savedBank (s : State) (gid : Nat) (g : Gang) (gcore name k : Nat) : Try (State × BitVec 65536) :=
  (if (s.bankSlot gid gcore name).isSome then .ok s else s.loadBank gid g gcore name k).map fun x =>
    match x.bankSlot gid gcore name with
    | some (j, e) => ({ x with shadowAcc := tabDel x.shadowAcc j }, e.data)
    | none => (x, 0)

/-- Tiles of a window come back, one after another. -/
def State.loadTiles (s : State) (gid : Nat) (g : Gang) (gcore core src dst : Nat) : Nat → Try State
  | 0 => .ok s
  | n + 1 => match s.savedTile gid g gcore src (unitKey core dst) with
    | .error x => .error x
    | .ok (x, v) => { x with tiles := tabSet x.tiles 0 (unitKey core dst) v }.loadTiles gid g gcore core (src + 1) (dst + 1) n

/-- Banks come back to their owner, one after another. -/
def State.loadBanks (s : State) (u gid : Nat) (g : Gang) (gcore core : Nat) : List Nat → Try State
  | [] => .ok s
  | j :: rest => match s.savedBank gid g gcore j (unitKey core j) with
    | .error x => .error x
    | .ok (x, v) =>
      { x with
        accs := tabSet x.accs 0 (unitKey core j) v
        accOwner := tabPut x.accOwner (unitKey core j) ⟨u, false⟩ }.loadBanks u gid g gcore core rest

/-- Loads a resumed strand's tiles and banks into its new place (R93, R233). A bank released under an AST that has faulted is
OWNED until the strand resumes (R247). -/
def State.loadUnits (s : State) (u : Nat) (m : Strand) (gid : Nat) (g : Gang) (core base : Nat) : Try State :=
  let gcore := m.member / g.spc
  match s.loadTiles gid g gcore core m.base base m.size with
  | .error x => .error x
  | .ok s1 => s1.loadBanks u gid g gcore core m.saved

end Sys2Proof.Machine
end

