-- ==== Sys2Proof/Machine/Leaves.lean ====
section
/-! DEFINITION. The mapped pages of a space, in ascending offset order (R166, R167), and new page tables. -/

namespace Sys2Proof.Machine

/-- The 64 KiB pages of a space that its walk translates, by number, in ascending order. -/
def State.mappedPages (s : State) (d : DieKey) (job : BitVec 32) (key : Nat) : List Nat :=
  ((s.leaves d job key).flatMap fun p =>
    (natRange (p.off / 65536) (sizeUnits p.at_.size)).filter fun n =>
      (s.walk d job key (n * 65536)) = some p.at_).mergeSort fun a b => a ≤ b

/-! ### New page tables -/

/-- Clears a run of bytes. -/
def State.zero (s : State) (addr n : Nat) : State :=
  { s with mem := s.mem.filter fun e => !(addr ≤ e.1 && e.1 < addr + n) }

/-- Takes an empty table of `parts` 256-byte parts from a die's pools: the table word that points to it (R166, R494). -/
def State.newTable (s : State) (d : DieKey) (parts : Nat) : Option (State × Word) :=
  match (s.die d).takeTable parts with
  | none => none
  | some (lp, part, v) =>
    some ((s.setDie d v).zero (tierAddr lp d.toNat (part * 256)) (parts * 256), wd (1 + b2n lp * 2 + part * 256))

/-- The table that a word of a table points to, taken new if there is none. -/
def State.tableAt (s : State) (d : DieKey) (lp : Bool) (at_ parts : Nat) : Option (State × Word) :=
  let e := s.physWord d lp at_
  if tblV e then some (s, e) else
    match s.newTable d parts with
    | none => none
    | some (s1, t) => some (s1.setPhysWord d lp at_ t, t)

/-- Writes the leaf of an offset at the level of a size code under a root, with the tables that it needs. -/
def State.mapLeaf (s : State) (d : DieKey) (root : Word) (off size : Nat) (leaf : Word) : Option State :=
  match s.tableAt d (tblTier root) (tblAddr root + 8 * (off / 2 ^ 39 % 8192)) 32 with
  | none => none
  | some (s1, t2) =>
    let a2 := tblAddr t2 + 16 * slotIndex off 2
    if size = 2 then some (s1.setPhysWord d (tblTier t2) a2 leaf)
    else match s1.tableAt d (tblTier t2) (a2 + 8) 32 with
      | none => none
      | some (s2, t1) =>
        let a1 := tblAddr t1 + 16 * slotIndex off 1
        if size = 1 then some (s2.setPhysWord d (tblTier t1) a1 leaf)
        else match s2.tableAt d (tblTier t1) (a1 + 8) 1 with
          | none => none
          | some (s3, t0) => some (s3.setPhysWord d (tblTier t0) (tblAddr t0 + 8 * (off / 65536 % 32)) leaf)

/-- The slot of a space on a die: the one in use for it, or else the lowest free one (R165). -/
def Die.spaceSlot (v : Die) (job : BitVec 32) (key : Nat) : Option Nat :=
  match v.spaces.find? fun e => e.2.job = job && e.2.key = key with
  | some (i, _) => some i
  | none => (List.range 1024).find? fun i => (tabGet v.spaces i).isNone

/-- A new empty space on a die: a level-3 table is 64 KiB, as eight blocks in a row. -/
def State.newSpace (s : State) (d : DieKey) (job : BitVec 32) (key : Nat) : Option (State × Word) :=
  match (s.die d).spaceSlot job key with
  | none => none
  | some i => match s.newTable d 256 with
    | none => none
    | some (s1, root) =>
      let space : Space := ⟨job, key, root⟩
      some ((s1.updDie d fun v => { v with spaces := tabPut v.spaces i space }).invalSpace d job key, root)

/-- The parts of the tables that a list of leaves needs, beside the level-3 table: 8 KiB blocks and 256-byte parts. -/
def tablesFor (l : List PageLeaf) : List Nat :=
  let small := l.filter fun p => p.at_.size ≠ 2
  let least := l.filter fun p => p.at_.size = 0
  (l.map fun p => p.off / 2 ^ 39).eraseDups.map (fun _ => 32) ++
    (small.map fun p => p.off / 2 ^ 30).eraseDups.map (fun _ => 32) ++
    (least.map fun p => p.off / 2 ^ 21).eraseDups.map fun _ => 1

end Sys2Proof.Machine
end

