-- ==== Sys2Proof/Machine/Snapshot.lean ====
section
/-! DEFINITION. Snapshots (R272 to R274): the opening at a boundary, the copying of pages, and the sealed shard. The order
of the page map and the rank state within the shard's body is the model's (log 33). -/

namespace Sys2Proof.Machine

/-! ### The rank state of R72 as words -/

/-- A table of words with its length before it. -/
def tabWords (t : List (Nat × Nat)) : List Word := wd t.length :: t.flatMap fun e => [wd e.1, wd e.2]

def Event.words (e : Event) : List Word := [wd e.payload.toNat, wd (e.payload.toNat / 2 ^ 64), e.seq, wd e.step.toNat]

def QueueEntry.words (e : QueueEntry) : List Word := [e.addr, wd (b2n e.priv + 2 * b2n e.sluice)]

/-- A class that a latch may hold. -/
def latchWord (c : Option (BitVec 2)) : Nat := match c with
  | none => 0
  | some c => 4 + c.toNat

/-- A communicator table entry as five words. -/
def Comm.words (i : Nat) (c : Comm) : List Word := [wd i, c.w0, c.w1, wd (c.w2.toNat + c.ovf.toNat * 2 ^ 48), wd c.seq.toNat]

/-- The state of R72 with the counter table (R218) and the communicator table (R259), and the die map that the opening
records, entry 0 the home die (R36, order 4). The class that the boundary has taken stands beside the latched one. -/
def Rank.words (r : Rank) : List Word :=
  [wd r.gstep.toNat, wd r.cls.toNat, wd (latchWord r.pend + latchWord (r.due.bind (·.cls)) * 16), r.rseed, r.pseed] ++
  r.srbase.toList ++ r.srlen.toList ++ tabWords (r.decay.map fun e => (e.1, e.2.toNat)) ++
  (wd r.evq.length :: r.evq.flatMap Event.words) ++ [wd (b2n r.evOvf), r.evSeq] ++
  (r.queues.toList.flatMap fun q => wd q.length :: q.flatMap QueueEntry.words) ++
  (wd (2 ^ 63 + r.home.toNat) :: r.dmap.toList.drop 1) ++
  (match r.migrate with
    | none => [0]
    | some d => [wd (2 ^ 63 + d.toNat)]) ++
  (match r.snapReq with
    | none => [0, 0, 0]
    | some q => [1, q.base, q.layout]) ++
  tabWords (r.counters.map fun e => (e.1, e.2.toNat)) ++ (wd r.comms.length :: r.comms.flatMap fun e => e.2.words e.1)

/-! ### CRC-32C -/

def crcBit (c : Nat) : Nat := if c % 2 = 1 then (c / 2) ^^^ 0x82F63B78 else c / 2

/-- One byte of CRC-32C, least significant bit first. -/
def crcByte (c b : Nat) : Nat := (List.range 8).foldl (fun x _ => crcBit x) (c ^^^ b)

/-- `n` bytes of a number, the lowest first. -/
def crcBytes (c v : Nat) : Nat → Nat
  | 0 => c
  | n + 1 => crcBytes (crcByte c (v % 256)) (v / 256) n

/-- A 64 KiB unit of memory as a number. -/
def State.unit (s : State) (addr : Nat) : BitVec 524288 :=
  BitVec.ofNat 524288 ((s.mem.filter fun e => addr ≤ e.1 && e.1 < addr + 65536).foldl
    (fun acc e => acc + e.2.toNat * 2 ^ (8 * (e.1 - addr))) 0)

def State.units (s : State) (addr n : Nat) : List (BitVec 524288) :=
  (List.range n).map fun i => s.unit (addr + 65536 * i)

/-- The last step of CRC-32C. -/
def crcEnd (c : Nat) : Nat := c ^^^ 0xFFFFFFFF

/-- The CRC of a shard (R274): bytes 0 to 59 of the header and all bytes from 64 on. -/
def shardCrc : List (BitVec 524288) → Nat
  | [] => 0
  | u :: rest =>
    let c := crcBytes 0xFFFFFFFF (u.toNat % 2 ^ 480) 60
    let c1 := crcBytes c (u.toNat / 2 ^ 512) 65472
    crcEnd (rest.foldl (fun x v => crcBytes x v.toNat 65536) c1)

/-! ### Shard layout -/

/-- The header without its CRC (R274). -/
def Shard.header (h : Shard) : Nat :=
  h.job.toNat + h.step.toNat * 2 ^ 32 + h.vrank.toNat * 2 ^ 80 + h.layout * 2 ^ 96 + h.gsize * 2 ^ 104 +
    h.member * 2 ^ 112 + h.units * 2 ^ 120

/-- A word of the page map (log 33): page number, unit, and the absent flag. -/
def SnapPage.word (p : SnapPage) : Word :=
  wd (p.page % 2 ^ 36 + (p.unit.getD 0) % 2 ^ 27 * 2 ^ 36 + b2n p.unit.isNone * 2 ^ 63)

/-- Words of the body's head: the page map and the rank state, each with its length. -/
def headWords (pages image : Nat) : Nat := 2 + 2 * pages + image

/-- Units that the header and the head of the body take. -/
def headUnits (pages image : Nat) : Nat := ceilDiv (64 + 8 * headWords pages image) 65536

/-- Layout, group size and member of a request: W3 of SNAP (log 33). -/
def SnapReq.layoutOf (q : SnapReq) : Nat := fld q.layout 7 0
def SnapReq.gsize (q : SnapReq) : Nat := fld q.layout 15 8
def SnapReq.member (q : SnapReq) : Nat := fld q.layout 23 16

/-- Writes words one after another. -/
def State.putWords (s : State) (addr : Nat) : List Word → State
  | [] => s
  | w :: r => (s.wr addr 8 w.toNat).putWords (addr + 8) r

/-- The buddy of a package (R275, log 33): the other member of its group of two. -/
def buddyOf (p : Pkg) (member : Nat) : Pkg := if member = 0 then p + 1 else p - 1

/-- Records a shard at its package, in the place of one at the same place. -/
def State.addShard (s : State) (h : Shard) : State :=
  s.updPkg (pkgOf h.die) fun k => { k with shards :=
    (k.shards.filter fun x => !(x.die = h.die && x.base = h.base)) ++ [h] }

/-- Copies a sealed shard to the buddy package (R275), if it is reached. -/
def State.copyBuddy (s : State) (h : Shard) : State :=
  if h.layout ≠ 2 then s else
    let d : DieKey := BitVec.setWidth 12 (buddyOf (pkgOf h.die) h.member) ||| (h.die &&& 0xC00)
    if !s.reach h.die d h.base then s
    else (s.copyBytes (lpddrAddr h.die.toNat h.base) (lpddrAddr d.toNat h.base) (h.units * 65536)).addShard { h with die := d }

/-- Seals the shard (R273, R274): page map, rank state, header and CRC are written, and the host is notified. -/
def State.sealShard (s : State) (key : Nat) (r : Rank) (n : Snap) : State :=
  let d := regionDie n.req.base
  let base := regionOff n.req.base
  let a := lpddrAddr d.toNat base
  let pages := n.copied.mergeSort fun x y => x.page ≤ y.page
  let h : Shard := ⟨d, base, r.job, r.vrank, n.step, n.req.layoutOf, n.req.gsize, n.req.member, n.next⟩
  let words := (wd pages.length :: pages.flatMap fun p => [p.word, p.leaf]) ++ (wd n.image.length :: n.image)
  let s1 := (s.zero a (headUnits pages.length n.image.length * 65536)).putWords (a + 64) words
  let s2 := s1.wr a 60 h.header
  let s3 := s2.wr (a + 60) 4 (shardCrc (s2.units a h.units))
  let s4 := ((s3.addShard h).copyBuddy h).updRank key fun v => { v with snap := none }
  s4.notify (pkgOf r.home) (notePayload' r n)
where
  notePayload' (r : Rank) (n : Snap) : BitVec 128 :=
    BitVec.ofNat 128 (0x02 + r.job.toNat * 2 ^ 32 + r.vrank.toNat * 2 ^ 64 + n.step.toNat * 2 ^ 80)

/-! ### Copying -/

/-- Copies the page at the head of the list into the shard, or records it as absent; with no page left, the shard is
sealed (R273). A page that an earlier sweep of the rank has yet to finish is swept first (R135). -/
def State.snapPage (s : State) (key : Nat) : State :=
  match s.rank? key with
  | none => s
  | some r => match r.snap with
    | none => s
    | some n => match n.todo with
      | [] => s.sealShard key r n
      | page :: rest =>
        let d := regionDie n.req.base
        let va := wd (page * 65536)
        let leaf := ((s.walk r.home r.job r.vrank.toNat (page * 65536)).map (·.leaf)).getD 0
        let early := r.sweeps.filter fun w => w.s0.toNat < n.step.toNat
        let back := fun (x : State) => x.sweepsOf s
        let finish := fun (x : State) (p : SnapPage) (next : Nat) =>
          let n1 : Snap := { n with todo := rest, copied := n.copied ++ [p], next := next }
          let x1 := (back x).updRank key fun v => { v with snap := some n1 }
          if rest.isEmpty then x1.sealShard key r n1 else x1
        if !s.reach r.home d (regionOff n.req.base) || s.dieHeld r.home then s
        else match (s.noSweeps.setRank key { r with sweeps := early }).access (r.client key) va 65536 false with
          | (s1, .fault _) => finish s1 ⟨page, none, leaf⟩ n.next
          | (s1, .stall _) => (back s1).askSweep key page
          | (s1, .ok t) =>
            finish (s1.copyBytes t.addr (lpddrAddr d.toNat (regionOff n.req.base + 65536 * n.next)) 65536)
              ⟨page, some n.next, leaf⟩ (n.next + 1)

/-- SNAPSHOT_PAGE_COPY (R273). -/
def execSnapshotPageCopy (rank : Nat) (s : State) : Host.Outcome State Fault Refusal := .next (s.snapPage rank)

/-- Copies every page left. -/
def State.snapAll (s : State) (key : Nat) : Nat → State
  | 0 => s
  | fuel + 1 => match (s.rank? key).bind (·.snap) with
    | none => s
    | some _ => (s.snapPage key).snapAll key fuel

/-- The snapshot that the boundary has taken from the latch opens (R36, order 4; R272). One that is still open is completed first;
where it cannot be, the request is latched again. -/
def State.openSnapshot (s : State) (key : Nat) : State :=
  match s.rank? key with
  | none => s
  | some r => match r.due.bind (·.snap) with
    | none => s
    | some q =>
      let s1 := match r.snap with
        | none => s
        | some n => s.snapAll key (n.todo.length + 1)
      match s1.rank? key with
      | none => s1
      | some v =>
        if v.snap.isSome then s1.setRank key { v with snapReq := v.snapReq.or (some q) } else
          let pages := s1.mappedPages v.home v.job v.vrank.toNat
          let n : Snap := { req := q, step := v.gstep, todo := pages, copied := []
                            next := headUnits pages.length v.words.length, image := v.words }
          s1.setRank key { v with snap := some n }

end Sys2Proof.Machine
end

