-- ==== Sys2Proof/Machine/Sweep.lean ====
section
/-! DEFINITION. The stamp sweep (R134 to R136). -/

namespace Sys2Proof.Machine

/-- A sweep as it is registered at a boundary: the decay table and the valid regions in their order (R87, R134). -/
def Rank.newSweep (r : Rank) : Sweep :=
  { s0 := r.gstep
    decay := r.decay
    todo := (List.range 8).filterMap fun i =>
      let b := vget r.srbase 0 i
      let n := fld (vget r.srlen 0 i) 31 0
      if bit b 0 && n ≠ 0 then some ⟨fld b 56 16, n⟩ else none
    ahead := [] }

/-- Sweeps at the head that have finished every region append their events (R136). -/
def State.sweepEnds (s : State) (key : Nat) : Nat → State
  | 0 => s
  | fuel + 1 => match s.rank? key with
    | none => s
    | some r => match r.sweeps with
      | [] => s
      | w :: rest =>
        if w.todo.isEmpty then
          ((s.setRank key { r with sweeps := rest }).event key (evPayload 0x31 (w.s0.toNat * 256) 0)).sweepEnds key fuel
        else s

/-- The sweep of a boundary, when the low 22 bits of the new GSTEP are zero (R36, order 6). -/
def State.startSweep (s : State) (key : Nat) : State :=
  match s.rank? key with
  | none => s
  | some r =>
    if r.gstep.toNat % 2 ^ 22 ≠ 0 then s
    else (s.setRank key { r with sweeps := r.sweeps ++ [r.newSweep] }).sweepEnds key (r.sweeps.length + 1)

/-- Removes a page from the first region that lists it. -/
def dropPage (page : Nat) : List Extent → List Extent
  | [] => []
  | e :: r => if e.first ≤ page && page < e.first + e.count then extentDel [e] page 1 ++ r else e :: dropPage page r

/-- What becomes of a word (R134): left alone, rewritten, or reported as stale. -/
inductive Swept where
  | keep
  | rewrite (w : Nat)
  | stale
  deriving DecidableEq, Repr

def DecayView.sweep (v : DecayView) (w : Nat) : Swept :=
  if v.delta w < 2 ^ 22 then .keep
  else if v.stale w then .stale
  else .rewrite (v.stamp (dkClass w) (v.read w))

/-- The words of a page in order: rewrites the ones that are due and appends the events of the stale ones. -/
def State.sweepWords (s : State) (key : Nat) (v : DecayView) (va addr : Nat) : State :=
  (List.range 8192).foldl (fun (acc : State) i => match v.sweep (acc.rd (addr + 8 * i) 8) with
    | .keep => acc
    | .rewrite w => acc.wr (addr + 8 * i) 8 w
    | .stale => acc.event key (evPayload 0x30 0 (va + 8 * i))) s

/-- Some word of a page is due to be rewritten. -/
def State.sweepWrites (s : State) (v : DecayView) (addr : Nat) : Bool :=
  (List.range 8192).any fun i => match v.sweep (s.rd (addr + 8 * i) 8) with
    | .rewrite _ => true
    | _ => false

/-- A procedure holds the page of an address (R183). -/
def State.procedureHolds (s : State) (c : Client) (va : Word) : Bool :=
  match s.resolve c va with
  | (_, .ok p) => ((s.die p.die).heldAt c.job p.key p.off).isSome
  | _ => false

/-- An open snapshot of a rank has yet to copy the page of an address. -/
def State.snapAwaits (s : State) (rank : Nat) (c : Client) (va : Word) : Bool :=
  match s.resolve c va with
  | (_, .ok p) => s.uncopied p.die c.job p.key p.off = some rank
  | _ => false

/-- The state in which what holds a page stalls no write to it, as a sweep works that the end of the procedure waits for. -/
def State.softHolds (s : State) : State :=
  { s with dies := s.dies.map fun e => (e.1, { e.2 with held := e.2.held.map fun h => { h with by_ := .procedure 0 0 false h.off } }) }

/-- The state `x` with the holds of `s`, and those that have begun since. -/
def State.holdsOf (x s : State) : State :=
  { x with dies := x.dies.map fun e =>
      let old := (tabAt s.dies Die.reset e.1).held
      (e.1, { e.2 with held := old ++ e.2.held.drop old.length }) }

/-- The page is done: it leaves the running sweep, whose end is reported (R136). -/
def State.pageSwept (s : State) (key page : Nat) (sweeps : List Sweep) : State :=
  (s.updRank key fun r => { r with sweeps := match sweeps with
    | [] => []
    | w :: rest =>
      { w with todo := dropPage page w.todo, ahead := w.ahead.filter (· ≠ page) } :: rest }).sweepEnds key (sweeps.length)

/-- The page that the running sweep of a rank does next: one that an access waits for, the next in order otherwise (R135). Of the pages
that accesses wait for, those that a procedure holds come last. -/
def State.sweepNext (s : State) (c : Client) (w : Sweep) : Option Nat :=
  let asked := w.ahead.filter fun p => extentMeets w.todo p 1
  ((asked.find? fun p => !s.procedureHolds c (wd (p * 65536))).or asked.head?).or (w.todo.head?.map (·.first))

/-- SWEEP_PAGE (R134 to R136): the running sweep of a rank does the page that an access waits for, or the next in order, with
the decay table as it was at its reference step. While it works no sweep stalls it, and neither does a snapshot of its rank
that was opened after it began. It waits for a procedure that holds the page (R183), unless the procedure itself waits for that snapshot to
copy the page and so for the sweep (log 43). -/
def execSweepPage (rank : Nat) (s : State) : Host.Outcome State Fault Refusal :=
  .next (match s.rank? rank with
    | none => s
    | some r => match r.sweeps with
      | [] => s
      | w :: _ =>
        let c := r.client rank
        match s.sweepNext c w with
        | none => s
        | some page =>
          let va := wd (page * 65536)
          let later := r.snap.any fun n => w.s0.toNat < n.step.toNat
          let s1 := s.noSweeps.softHolds.updRank rank fun v => { v with snap := if later then none else v.snap }
          let back := fun (x : State) => ((x.sweepsOf s).holdsOf s).updRank rank fun v =>
            if later then { v with snap := r.snap } else v
          let v : DecayView := ⟨w.decay, w.s0.toNat % 2 ^ 24⟩
          let lost := fun (x : State) (cause : BitVec 8) =>
            ((back x).event rank (evPayload 0x30 (cause.toNat * 256) va.toNat)).pageSwept rank page r.sweeps
          if s.procedureHolds c va && !(later && s.snapAwaits rank c va) then s else
            match s1.access c va 65536 false with
            | (s2, .fault e) => lost s2 e
            | (s2, .stall _) => back s2
            | (s2, .ok t) =>
              if !s2.sweepWrites v t.addr then ((back s2).sweepWords rank v va.toNat t.addr).pageSwept rank page r.sweeps
              else match s2.access c va 65536 true with
                | (s3, .fault e) => lost s3 e
                | (s3, .stall _) => back s3
                | (s3, .ok u) => ((back s3).sweepWords rank v va.toNat u.addr).pageSwept rank page r.sweeps)

end Sys2Proof.Machine
end

