-- ==== Sys2Proof/Machine/Migrate.lean ====
section
/-! DEFINITION. Rank migration (R268 to R270): what Barchan takes at the new home, the rounds of the pre-copy, the flip, and
the endpoint entries; the orders of R36 that follow the flip; and the loss of a package (R198). -/

namespace Sys2Proof.Machine

/-! ### Image slots and DS of a die -/

/-- The rank holds image slot `i` of a die: its own, or the one at the target of its pre-copy. -/
def Rank.holdsSlot (r : Rank) (d : DieKey) (i : Nat) : Bool :=
  (r.home = d && r.slot = i) || r.precopy.any fun p => p.target = d && p.slot = i

/-- The DS segments that the rank holds on a die: its own, or those at the target of its pre-copy. -/
def Rank.holdsDs (r : Rank) (d : DieKey) : List Nat :=
  (if r.home = d then r.ds else []) ++ match r.precopy with
    | some p => if p.target = d then p.ds else []
    | none => []

/-- Every rank that can hold slots and segments of a die: those that run, and those that a package's warm save will bring back
(R8, R291), here or, for what a pre-copy has taken, elsewhere. -/
def State.holders (s : State) : List Rank :=
  s.ranks.map (·.2) ++ s.pkgs.flatMap fun e => match e.2.warm with
    | some w => w.ranks.map (·.2)
    | none => []

/-- The lowest free rank image slot of a die's 64 (R8). -/
def State.freeImageSlot (s : State) (d : DieKey) : Option Nat :=
  (List.range 64).find? fun i => s.holders.all fun r => !r.holdsSlot d i

/-- The lowest free DS segments of a die, `n` of them (R137). -/
def State.freeDs (s : State) (d : DieKey) (n : Nat) : Option (List Nat) :=
  let used := s.holders.flatMap fun r => r.holdsDs d
  let l := ((List.range Config.dsSegs).filter fun i => !used.contains i).take n
  if l.length = n then some l else none

/-! ### Abandoning -/

/-- Whatever Barchan had taken at the new home returns to its pools (R268, R270). -/
def State.giveBack (s : State) (p : Precopy) : State :=
  s.updDie p.target fun v =>
    let v1 := p.moved.foldl (fun (d : Die) m => d.giveFrames (m.tier = 1) m.frame (sizeUnits m.size.toNat)) v
    p.tables.foldl (fun (d : Die) t =>
      if t.1 = 1 then { d with lpddrTables := extentAdd d.lpddrTables t.2.first t.2.count }
      else { d with hbmTables := extentAdd d.hbmTables t.2.first t.2.count }) v1

/-- The migration of a rank is abandoned (R270): the rank keeps its home, and the host is told the reason (R289). It is the one
that the boundary under way has taken, and a later request stays latched; or else the latched one. -/
def State.abandonMove (s : State) (key : Nat) (reason : Nat) (target : DieKey) : State :=
  match s.rank? key with
  | none => s
  | some r =>
    let s1 := match r.precopy with
      | none => s
      | some p => s.giveBack p
    let taken := r.due.any fun d => d.move.isSome
    (s1.updRank key fun v => { v with
      precopy := none
      migrate := if taken then v.migrate else none
      due := v.due.map fun d => { d with move := none } }).notify (pkgOf r.home)
      (BitVec.ofNat 128 (0x03 + reason * 2 ^ 8 + r.job.toNat * 2 ^ 32 + r.vrank.toNat * 2 ^ 64 + r.home.toNat * 2 ^ 80 +
        target.toNat * 2 ^ 92))

/-! ### Pre-copy -/

/-- Takes tables of several sizes: the extents with their tiers, the largest first. -/
def Die.takeTables (v : Die) : List Nat → Option (Die × List (Nat × Extent))
  | [] => some (v, [])
  | n :: r => match v.takeTable n with
    | none => none
    | some (lp, f, v1) => (v1.takeTables r).map fun x => (x.1, (b2n lp, ⟨f, n⟩) :: x.2)

/-- A pre-copy starts (R268): Barchan takes the image slot, the DS region and the table blocks at the new home, or the
migration is abandoned (R270). -/
def State.startMove (s : State) (key : Nat) (target : DieKey) : State :=
  match s.rank? key with
  | none => s
  | some r =>
    if !s.reach r.home target 0 then s.abandonMove key 0 target
    else match s.freeImageSlot target with
      | none => s.abandonMove key 2 target
      | some slot => match s.freeDs target r.ds.length with
        | none => s.abandonMove key 3 target
        | some ds => match (s.die target).takeTables (256 :: tablesFor (s.leaves r.home r.job r.vrank.toNat)) with
          | none => s.abandonMove key 4 target
          | some (v, tables) =>
            let p : Precopy :=
              { target := target, round := 1, dirty := [], moved := [], tables := tables, ds := ds, slot := slot
                finished := false }
            (s.setDie target v).updRank key fun r => { r with precopy := some p }

/-- A POLDER page that Barchan copies: a lease of the old home covers it, the engine of a reclaim has not passed it, and the
lender serves it (R199). A page that is no live page, in a granule that the engine has passed, counts as left uncopied by it and is carried
with its leaf, which R199 does not say (log 42). -/
def State.polderCopied (s : State) (d : DieKey) (leaf : Word) : Bool :=
  let f := leafFrame leaf
  let lender := dieOfPeer (leafPeer leaf)
  ((s.die d).polders.any fun e => e.2.borrower && e.2.lender = leafPeer leaf && e.2.covers f &&
    (e.2.state = 2 || (e.2.state = 3 && e.2.granule ≤ f - e.2.base.toNat))) &&
  s.reach d lender (f * 65536) && (s.die lender).lends (peerOf d) f

/-- The tier in which a leaf's page gets new frames at the new home, if it gets any (R183, R199). -/
def State.newTier (s : State) (d : DieKey) (p : PageLeaf) : Option (BitVec 2) :=
  if (s.die d).malformed p.at_.leaf p.at_.size then none
  else match leafTier p.at_.leaf with
    | 0 => some 0
    | 1 => some 1
    | 2 => if s.polderCopied d p.at_.leaf then some 0 else none
    | _ => none

/-- The frames taken for a leaf. -/
def movedFor (l : List MovedPage) (p : PageLeaf) (tier : BitVec 2) : Option MovedPage :=
  l.find? fun m => m.off = p.off && m.size.toNat = p.at_.size && m.tier = tier

/-- Takes frames for the leaves that have none yet. -/
def State.reserve (s : State) (d : DieKey) (v : Die) (have_ : List MovedPage) : List PageLeaf → Option (Die × List MovedPage)
  | [] => some (v, [])
  | p :: r => match s.newTier d p with
    | none => s.reserve d v have_ r
    | some tier => match movedFor have_ p tier with
      | some m => (s.reserve d v have_ r).map fun x => (x.1, m :: x.2)
      | none => match v.takeFrames (tier = 1) (sizeUnits p.at_.size) with
        | none => none
        | some (f, v1) => (s.reserve d v1 have_ r).map fun x => (x.1, ⟨p.off, BitVec.ofNat 2 p.at_.size, tier, f⟩ :: x.2)

/-- The frames that the leaves need now: those no longer needed return first. -/
def State.reserveAll (s : State) (r : Rank) (p : Precopy) : Option (Die × List MovedPage) :=
  let l := s.leaves r.home r.job r.vrank.toNat
  let needed := fun (m : MovedPage) => l.any fun x => x.off = m.off && x.at_.size = m.size.toNat && s.newTier r.home x = some m.tier
  let v := (p.moved.filter fun m => !needed m).foldl (fun (d : Die) m =>
    d.giveFrames (m.tier = 1) m.frame (sizeUnits m.size.toNat)) (s.die p.target)
  s.reserve r.home v p.moved l

/-- PRECOPY_ROUND (R268): a round of the pre-copy ends. -/
def execPrecopyRound (rank : Nat) (s : State) : Host.Outcome State Fault Refusal :=
  .next (match s.rank? rank with
    | none => s
    | some r => match r.precopy with
      | none => s
      | some p =>
        if p.finished || r.stepping.isSome || s.dieHeld r.home then s
        else if !s.reach r.home p.target 0 then s.abandonMove rank 0 p.target
        else match s.reserveAll r p with
          | none => s.abandonMove rank 4 p.target
          | some (v, moved) =>
            let finished := p.dirty.length ≤ 2048
            let next : Precopy := { p with
              round := p.round + 1, moved := moved, finished := finished, dirty := if finished then p.dirty else [] }
            (s.setDie p.target v).updRank rank fun q => { q with precopy := some next })

/-- A migration request is latched (R37, R268). While a boundary carries out a migration that it has taken, the pre-copy of a
later request waits until that one is over. -/
def State.latchMove (s : State) (key : Nat) (target : DieKey) : State :=
  match s.rank? key with
  | none => s
  | some r =>
    let latched := fun (x : State) => x.updRank key fun v => { v with migrate := some target }
    if r.due.any fun d => d.move.isSome then latched s else
      let keep := r.precopy.any fun p => p.target = target
      let s1 := match r.precopy with
        | some p => if keep then s else (s.giveBack p).updRank key fun v => { v with precopy := none }
        | none => s
      if keep || target = r.home then latched s1 else (latched s1).startMove key target

/-- The pre-copy of a migration that was latched while another one was carried out starts. -/
def State.startLatched (s : State) (key : Nat) : State :=
  match s.rank? key with
  | none => s
  | some r => match r.migrate with
    | none => s
    | some d => if r.precopy.isSome || d = r.home then s else s.startMove key d

/-! ### Orders 4 to 6 of R36 -/

/-- The snapshot opens, the budget class takes effect, the sweep starts, and the boundary is over (R36): what the STEP has taken
from the latch, and nothing that was latched later (R37). -/
def State.lateOrders (s : State) (key : Nat) : State :=
  let s1 := s.openSnapshot key
  let s2 := s1.updRank key fun r => { r with cls := (r.due.bind (·.cls)).getD r.cls, stepping := none, due := none }
  (s2.startSweep key).startLatched key

/-! ### The flip -/

/-- The leaf that Barchan writes at the new home (R183, R199). -/
def flipLeaf (leaf : Word) (target : DieKey) (moved : Option MovedPage) : Word :=
  match moved with
  | some m => setLeaf leaf m.tier.toNat (leafMode leaf) (leafPeer leaf) m.frame (leafRset leaf)
  | none =>
    if leafTier leaf = 3 && dieOfPeer (leafPeer leaf) = target then
      setLeaf leaf 0 (leafMode leaf) 0 (leafFrame leaf) (leafRset leaf)
    else leaf

/-- Carries one leaf: its bytes and cells where it gets new frames, its new word, and the old word is no longer valid. -/
def State.carryLeaf (s : State) (job : BitVec 32) (d0 d1 : DieKey) (root : Word) (l : List MovedPage) (tier : Option (BitVec 2)) (p : PageLeaf) :
    Option State :=
  let m := tier.bind (movedFor l p)
  let new := flipLeaf p.at_.leaf d1 m
  let s1 := match m with
    | none => s
    | some _ =>
      let n := 2 ^ sizeBits p.at_.size
      let (k0, a) := leafPlace d0 p.at_.leaf
      let (k1, b) := leafPlace d1 new
      (s.copyOwn a b n).moveCells job d0 k0 a k1 b n
  (s1.setPhysWord d0 p.at_.lpddr p.at_.at_ 0).mapLeaf d1 root p.off p.at_.size new

/-- Carries every leaf in turn. -/
def State.carryAll (s : State) (job : BitVec 32) (d0 d1 : DieKey) (root : Word) (l : List MovedPage) :
    List (PageLeaf × Option (BitVec 2)) → Option State
  | [] => some s
  | (p, t) :: r => match s.carryLeaf job d0 d1 root l t p with
    | none => none
    | some s1 => s1.carryAll job d0 d1 root l r

/-- The holds and counts of the rank's private pages at the old home end (R183). -/
def State.clearHolds (s : State) (d : DieKey) (job : BitVec 32) (key : Nat) : State :=
  let mine := fun (h : Held) => h.job = job && h.key = key
  let s1 := ((s.die d).held.filter mine).foldl (fun (acc : State) h => match h.by_ with
    | .demotion _ f => acc.updDie d fun v => v.giveFrames true f (sizeUnits h.size.toNat)
    | .hwMigration home f => acc.updDie home fun v => v.giveFrames false f 1
    | .procedure _ _ _ _ => acc) s
  s1.updDie d fun v => { v with
    held := v.held.filter fun h => !mine h
    counts := v.counts.filter fun c => !(c.job = job && c.key = key)
    spaces := v.spaces.filter fun e => !(e.2.job = job && e.2.key = key) }

/-- Reclaims under way at the old home find no live page of the rank any more (R199): LIVE counts those left, and a reclaim with
none left ends (R190). -/
def State.recountLive (s : State) (d : DieKey) : State :=
  (s.die d).polders.foldl (fun (acc : State) e =>
    if !e.2.borrower || e.2.state ≠ 3 || e.2.todo.isEmpty then acc else
      let left := e.2.todo.filter fun k => (acc.stillLive d e.2 k).isSome
      let acc1 := acc.updPolder d e.1 fun p => { p with todo := left, live := BitVec.ofNat 32 left.length }
      if left.isEmpty then acc1.reclaimEnds d e.1 else acc1) s

/-- A partition leaves its cluster; its CS segments become IDLE (R158, R229); a claim that no strand of it is left to carry through is
given up (log 84). -/
def State.unbindPartition (s : State) (key lp : Nat) : State :=
  match (s.rank? key).bind fun r => tabGet r.clusters lp with
  | none => s
  | some cluster =>
    let s0 := s.unclaim true key lp
    let s1 := s0.updRank key fun r => { r with clusters := tabDel r.clusters lp, csLeft := tabPut r.csLeft lp s.ids }
    { s1 with
      ids := s1.ids + 1
      owner := tabDel s1.owner cluster
      csSeg := s1.csSeg.map fun e =>
        if e.2.rank = key && e.2.holder = lp && e.2.state = .active then (e.1, { e.2 with state := .idle }) else e }

/-- Saves segments one after another; one whose frame cannot be reached stays where it is until it is bound again (R158, R160).
It waits while a frame's page is held. -/
def State.evictAll (s : State) (cs : Bool) : List (Nat × SegRec) → Try State
  | [] => .ok s
  | (k, e) :: rest => match s.evict cs k e with
    | .waits x => .error x
    | o => o.state.evictAll cs rest

/-- Scratchpad contents and shadow slots of a rank whose gangs are all switched out go into its frames (R158, R269,
step 2). It waits while the page of a frame is held. -/
def State.carryStores (s : State) (key : Nat) (r : Rank) : Try State :=
  let s1 := (r.clusters.map (·.1)).foldl (fun (acc : State) lp => acc.unbindPartition key lp) s
  let mine := fun (t : Tab SegRec) => t.filter fun e => e.2.rank = key && (e.2.state = .idle || e.2.state.saves)
  match s1.evictAll false (mine s1.lsSeg) with
  | .error x => .error x
  | .ok s2 => match s2.evictAll true (mine s2.csSeg) with
    | .error x => .error x
    | .ok s3 => match s3.dropAll State.dropTile ((s3.shadowTile.filter fun e => e.2.rank = key).map (·.1)) with
      | .error x => .error x
      | .ok s4 => s4.dropAll State.dropAcc ((s4.shadowAcc.filter fun e => e.2.rank = key).map (·.1))

/-- Copies the DS region to its new segments. -/
def State.carryDs (s : State) (d0 d1 : DieKey) (old new : List Nat) : State :=
  (old.zip new).foldl (fun (acc : State) e => acc.copyBytes (dsAddr d0.toNat e.1 0) (dsAddr d1.toNat e.2 0) 65536) s

/-- An endpoint entry for a home die and an image slot (R258), without CO. -/
def endpointWord (d : DieKey) (slot : Nat) : Word := wd (d.toNat + slot * 2 ^ 12 + 2 ^ 63)

/-- The new endpoint entry goes to the home die of every rank of the job (R269, step 4). -/
def State.broadcast (s : State) (r : Rank) : State :=
  let homes := ((s.ranks.filter fun e => e.2.job = r.job).map fun e => e.2.home).eraseDups
  homes.foldl (fun (acc : State) d =>
    acc.send r.home d (64 * acc.ids) (.endpoint r.job r.vrank (endpointWord r.home r.slot))) s

/-- The forwarding entry of the old home (R164). -/
def State.addForward (s : State) (key : Nat) (d0 d1 : DieKey) : State :=
  (s.updDie d0 fun v => { v with forwards := (v.forwards.filter fun f => f.rank ≠ key) ++ [⟨key, d1, true⟩] }).updDie d1
    fun v => { v with forwards := v.forwards.filter fun f => f.rank ≠ key }

/-- The final delta can be sent (R269, step 2): every write of the rank's own strands is made (R201), so is every request that a
leaf of its pages has translated (R203), no request of its home die is held (R257), and no page of it has still to be swept; the first
one that has comes next (R135). -/
def State.flipReady (s : State) (key : Nat) (r : Rank) : Try Unit :=
  if s.strands.any (fun e => e.2.rank = key && s.writesOut e.1) || s.translatedOut r.job r.vrank.toNat || s.dieHeld r.home then
    .error s
  else if s.ranks.all fun e => e.2.sweeps.isEmpty then .ok ()
  else match (s.leaves r.home r.job r.vrank.toNat).findSome? fun p =>
      s.unsweptIn r.home r.job r.vrank.toNat p.off (sizeUnits p.at_.size) with
    | some (k, page) => .error (s.askSweep k page)
    | none => .ok ()

/-- What the rank's endpoint holds, messages of collectives and aborts, goes with it to its new home (R269, steps 1 and 2). -/
def State.carryMsgs (s : State) (key : Nat) (d0 d1 : DieKey) : State :=
  let mine := fun (b : Body) => match b with
    | .coll m => m.dest = key
    | .resend m => m.from_ = key
    | .abort _ _ dest => dest = key
    | _ => false
  { s with msgs := s.msgs.map fun q =>
      if q.arrived && q.dst = d0 && mine q.body then { q with dst := d1, at_ := pkgOf d1, forwarded := false } else q }

/-- The flip (R269, steps 2 to 5), once the rank's gangs are switched out; or the reason for which the migration is abandoned
(R270). It waits while it is not ready or a frame's page is held. -/
def State.flip (s : State) (key : Nat) (r : Rank) (p : Precopy) : Try (Except Nat State) :=
  let d0 := r.home
  let d1 := p.target
  if !s.reach d0 d1 0 then .ok (.error 0)
  else match s.flipReady key r, s.carryStores key r with
    | .error x, _ => .error x
    | _, .error x => .error x
    | .ok _, .ok s1 => match s1.reserveAll r p with
      | none => .ok (.error 4)
      | some (v, moved) =>
        let s2 := (s1.setDie d1 v).giveBack { p with moved := [] }
        match s2.newSpace d1 r.job r.vrank.toNat with
        | none => .ok (.error 4)
        | some (s3, root) =>
          let l := (s3.leaves d0 r.job r.vrank.toNat).map fun x => (x, s3.newTier d0 x)
          match s3.carryAll r.job d0 d1 root moved l with
          | none => .ok (.error 4)
          | some s4 =>
            let s5 := (((s4.carryDs d0 d1 r.ds p.ds).invalSpace d0 r.job r.vrank.toNat).clearHolds d0 r.job
              r.vrank.toNat).recountLive d0
            let s6 := (((s5.addForward key d0 d1).carryMsgs key d0 d1).renameCells r.job r.vrank.toNat d0 d1).updRank key fun q => { q with
              home := d1, slot := p.slot, ds := p.ds, precopy := none, due := q.due.map fun d => { d with move := none } }
            match s6.rank? key with
            | none => .ok (.ok s6)
            | some q => .ok (.ok ((s6.broadcast q).event key (evPayload 0x40 (d1.toNat * 256) 0)))

/-- The boundary goes on once the rank's gangs are switched out for its migration, or waits with the flip. -/
def State.flipRest (s : State) (key : Nat) : Try State :=
  match s.rank? key with
  | none => .ok s
  | some r => match r.precopy with
    | none => .ok (s.lateOrders key)
    | some p => (s.flip key r p).map fun out => match out with
      | .error e => (s.abandonMove key e p.target).lateOrders key
      | .ok s1 => s1.lateOrders key

/-! ### Endpoint entries -/

/-- Writes one entry of a rank's endpoint table: CO names the rank's own home die (R258). -/
def State.putEndpoint (s : State) (key : Nat) (r : Rank) (vrank : Nat) (entry : Word) : State × Res Unit :=
  let co := if BitVec.setWidth 12 entry = r.home then 2 ^ 20 else 0
  s.writeVa (r.client key) (r.endpbase + wd (8 * vrank)) 8 (entry.toNat % 2 ^ 20 + co + entry.toNat / 2 ^ 63 * 2 ^ 63)

/-- The CO bits of a rank's own table after the rank has moved (R258): CO of every valid entry says whether it names the rank's
own home die. -/
def State.refreshCo (s : State) (key : Nat) (r : Rank) : List Nat → State × Res Unit
  | [] => (s, .ok ())
  | v :: rest => match s.readVa (r.client key) (r.endpbase + wd (8 * v)) 8 with
    | (s1, .fault c) => (s1, .fault c)
    | (s1, .stall k) => (s1, .stall k)
    | (s1, .ok e) =>
      if !bit (wd e) 63 || bit (wd e) 20 = (BitVec.ofNat 12 e = r.home : Bool) then s1.refreshCo key r rest
      else match s1.writeVa (r.client key) (r.endpbase + wd (8 * v)) 8 (e ^^^ 2 ^ 20) with
        | (s2, .ok _) => s2.refreshCo key r rest
        | (s2, o) => (s2, o)

/-- Rewrites the entry in one rank's table, and in the moved rank's own table every CO bit (R258, R269). A rank whose own NRANKM1 is
smaller than the moved rank's number, against R285, has no such entry, and nothing of it is written (R17). -/
def State.rewriteTable (s : State) (key : Nat) (r : Rank) (vrank : Nat) (entry : Word) : State × Res Unit :=
  if vrank > r.nrankm1.toNat then (s, .ok ()) else match s.putEndpoint key r vrank entry with
  | (s1, .ok _) => if r.vrank.toNat = vrank then s1.refreshCo key r (List.range (r.nrankm1.toNat + 1)) else (s1, .ok ())
  | o => o

/-- Rewrites the entry in the tables of the ranks of a home die; a table that cannot be written leaves an event
(ENDPOINT_FAIL), which names this entry also where a CO bit of another entry is what failed (log 11). It waits while a table's page
is held. -/
def State.putEndpoints (s : State) (vrank : BitVec 16) (entry : Word) : List (Nat × Rank) → Try State
  | [] => .ok s
  | (key, r) :: rest => match s.rewriteTable key r vrank.toNat entry with
    | (s1, .stall _) => .error s1
    | (s1, .ok _) => s1.putEndpoints vrank entry rest
    | (s1, .fault c) => (s1.event key (evPayload 0x41 (c.toNat * 256 + vrank.toNat * 65536)
        (r.endpbase + wd (8 * vrank.toNat)).toNat)).putEndpoints vrank entry rest

/-- ENDPOINT_UPDATE (R269, step 4). -/
def execEndpointUpdate (s : State) : Host.Outcome State Fault Refusal :=
  .next (match s.subjectMsg with
    | none => s
    | some q => match q.body with
      | .endpoint job vrank entry =>
        s.attempt ((s.putEndpoints vrank entry (s.ranks.filter fun e => e.2.job = job && e.2.home = q.dst)).map fun x =>
          x.dropMsg q.id)
      | _ => s)

/-! ### Loss of a package -/

/-- PACKAGE_LOST (R31, R198, R270): the management plane of a package reports another package lost. The leases of the
package's dies with it are fenced, and migrations to it are abandoned. -/
def execPackageLost (pkg lost : Pkg) (s : State) : Host.Outcome State Fault Refusal :=
  .next (
    let s1 := s.updPkg pkg fun k => { k with lost := if k.lost.contains lost then k.lost else k.lost ++ [lost] }
    let dies := (List.range 4).map fun d => BitVec.ofNat 12 (pkg.toNat + d * 1024)
    let s2 := dies.foldl (fun (acc : State) d => acc.loseLeases d lost) s1
    s2.ranks.foldl (fun (acc : State) e => match e.2.precopy with
      | some p =>
        if pkgOf e.2.home = pkg && pkgOf p.target = lost && e.2.stepping.isNone then acc.abandonMove e.1 0 p.target else acc
      | none => acc) s2)

end Sys2Proof.Machine
end

