-- ==== Sys2Proof/Machine/Bind.lean ====
section
/-! DEFINITION. The accesses that bind a segment: those of a stream's word and those of an engine (R157). -/

namespace Sys2Proof.Machine

/-- Streams that wait for a segment try their words again. -/
def Strand.wake (m : Strand) (lo hi : Nat) : Strand :=
  [Stream.c, .l, .x, .s].foldl (fun (k : Strand) t => match (k.stream t).wait with
    | .segment a => if lo ≤ fld a 51 0 && fld a 51 0 < hi then k.setWait t .none else k
    | _ => k) m

/-- Some of `n` bytes from an address on lie in the segment of another address. -/
def onSegment (addr : Nat) (base n : Nat) : Bool :=
  n ≠ 0 && base / 65536 ≤ addr / 65536 && addr / 65536 ≤ (base + n - 1) / 65536

/-- A stream stands at a word that has met the segment of an address unbound. -/
def Strand.streamOn (m : Strand) (addr : Nat) : Bool := [Stream.c, .l, .x, .s].any fun t => match (m.stream t).wait with
  | .segment a => onSegment addr a.toNat 1
  | _ => false

/-- A running AST writes its next row, or after the last one its trailer, to the segment of an address (R335, R346). -/
def Ast.on (a : Ast) (addr : Nat) : Bool :=
  let rows := fld a.desc 12 6
  let pitch := fld a.desc 63 32
  let width := fld a.desc 19 13 * fmtWidth (fld a.desc 23 20) / 8
  !a.stopped &&
    if a.row < rows then onSegment addr (a.dst.toNat + a.row * pitch) width
    else onSegment addr (ceilDiv (a.dst.toNat + (rows - 1) * pitch + width) 16 * 16) 16

/-- A running command reaches the segment of an address: with its counter, with the chunks that may be in flight, or with the
source of its endpoint (R147, R260, R365). -/
def Cmd.on (k : Cmd) (addr : Nat) : Bool :=
  let chunks := (natRange k.next 16).filter fun i => i < k.chunks
  k.state == .running && (onSegment addr k.counter.toNat 16 || match k.head with
    | some h => (match (collRegions k h).1 with
        | d :: rest => (chunks.any fun i => onSegment addr (d.1.toNat + 4096 * i) (k.chunkBytes i)) ||
            rest.any fun e => onSegment addr e.1.toNat e.2
        | [] => false)
    | none => chunks.any fun i => (k.pieceList i).any fun p => onSegment addr p.src p.bytes || onSegment addr p.dst p.bytes)

/-- Something of a resident strand accesses the segment of an address (R157). -/
def State.accesses (s : State) (m : Strand) (loc : Nat) (addr : Nat) : Bool :=
  m.streamOn addr || m.asts.any (fun a => a.on addr) || m.cmds.any fun e => (s.startCmd m (locCore loc) e.2).on addr

/-- The streams that wait for the segment from an offset on, of the strands that share it with one strand: those of its rank in
its cluster for a CS segment, those of its gang on its core for an LS segment. -/
def State.wakeSegment (s : State) (m : Strand) (loc : Nat) (cs : Bool) (first : Nat) : State :=
  { s with strands := s.strands.map fun x => match x.2.place with
      | none => x
      | some l =>
        let same := x.2.rank = m.rank && if cs then locCluster l = locCluster loc else x.2.gang = m.gang && locCore l = locCore loc
        if same then (x.1, x.2.wake first (first + 65536)) else x }

/-- SEGMENT_BIND (R157, R160): an access of the strand to an unbound segment of its LS or CS region binds it, and the streams
that wait for it go on; so do those of a segment that has been bound since they met it. A claim or a restore that has begun is carried
through also when the access that began it is over. -/
def execSegmentBind (loc : Loc) (addr : Word) (s : State) : Host.Outcome State Fault Refusal :=
  .next (match s.onBank loc.toNat with
    | none => s
    | some (_, m) => match s.clientOf m with
      | none => s
      | some c =>
        let off := fld addr 51 0
        let cs := decide (off ≥ 0x1000000)
        let e : SegRec := if cs then ⟨m.rank, c.lp, (off - 0x1000000) / 65536, 0, .active⟩
          else match s.gang? m.gang with
            | some g => ⟨m.rank, m.gang, off / 65536, m.member / g.spc, .active⟩
            | none => ⟨m.rank, m.gang, off / 65536, 0, .active⟩
        if fld addr 63 52 ≠ 31 || !(s.accesses m loc.toNat addr.toNat || s.claimed cs e) then s else
          match s.scratch c addr with
          | .stall _ =>
            let lo := if cs then locCluster loc.toNat * 256 else locCore loc.toNat * 32
            match s.bindSeg cs lo (if cs then 256 else 24) e with
            | .done s1 => s1.wakeSegment m loc.toNat cs (off / 65536 * 65536)
            | o => o.state
          | .ok _ => s.wakeSegment m loc.toNat cs (off / 65536 * 65536)
          | _ => s)

end Sys2Proof.Machine
end

