-- ==== Sys2Proof/Machine/Sched.lean ====
section
/-! DEFINITION. Work queues, nest activation, placement and dispatch (R217 to R225, R44, R69). -/

namespace Sys2Proof.Machine

/-! ### Nest records -/

/-- The eight words of a record, or the cause for which it cannot be read (R221); a stall gives nothing yet. -/
def State.readRecord (s : State) (c : Client) (va : Word) : State × Res (Vector Word 8) :=
  match s.readVa c va 64 with
  | (s1, .ok v) => (s1, .ok (Vector.ofFn fun (i : Fin 8) => wd (v / 2 ^ (64 * i.val) % 2 ^ 64)))
  | (s1, .fault e) => (s1, .fault e)
  | (s1, .stall w) => (s1, .stall w)

/-- Field `j` of ORDER: the dimension at depth `j`. -/
def recOrder (w1 : Word) (j : Nat) : Nat := fld w1 (2 * j + 1) (2 * j)

/-- Word W4 breaks R221. -/
def badWaits (w : Vector Word 8) : Bool := fld w[4] 11 10 ≠ 0 || fld w[4] 43 42 ≠ 0

/-- The conditions of R221 on a record. -/
def badRecord (w : Vector Word 8) : Bool :=
  let count := recCount w[0]
  let spc := fld w[1] 13 12 + 1
  let tw := fld w[1] 20 14
  w[0] = 0 || count > 2 ^ 32 || (w[6] ≠ 0 && count > 2 ^ 20) ||
  !((List.range 4).all fun d => (List.range 4).any fun j => recOrder w[1] j = d) ||
  tw = 0 || tw > 64 || tw * spc > 64 || fld w[1] 27 21 > tw || fld w[1] 32 28 > 24 || fld w[1] 39 36 = 0 ||
  bit w[1] 11 || fld w[1] 35 33 ≠ 0 || fld w[1] 63 40 ≠ 0 || fld w[2] 1 0 ≠ 0 || badWaits w ||
  fld w[5] 15 10 ≠ 0 || fld w[5] 63 26 ≠ 0 || fld w[6] 2 0 ≠ 0 || w[7] ≠ 0

/-- The two waits of a record (R219); counter 0 reads as zero and a wait on it is satisfied (R218). -/
def Rank.waitsMet (r : Rank) (w : Vector Word 8) : Bool :=
  let met := fun idx target => idx = 0 || target ≤ (tabAt r.counters 0 idx).toNat
  met (fld w[4] 9 0) (fld w[4] 31 12) && met (fld w[4] 41 32) (fld w[4] 63 44)

/-- Gang shape: cores, strands per core, tiles per strand (R221). -/
def recCores (w : Vector Word 8) : Nat := fld w[1] 10 8 + 1
def recSpc (w : Vector Word 8) : Nat := fld w[1] 13 12 + 1
def recTiles (w : Vector Word 8) : Nat := fld w[1] 20 14

/-! ### Placement (R223) -/

/-- The partition of least load; among equals the one that comes first from PSEED mod P on. -/
def leastLoad (loads : List Nat) (s : Nat) : Nat :=
  let p := loads.length
  ((leastBy (fun (k : Nat) => loads.getD ((s + k) % p) 0) (List.range p)).map fun k => (s + k) % p).getD 0

/-- Assigns the ordinals from `o` on, `n` of them: the assignments and the loads. -/
def placeRun (costs : Option (List Nat)) (s : Nat) : Nat → Nat → List Nat → List (Nat × Nat) × List Nat
  | 0, _, loads => ([], loads)
  | n + 1, o, loads =>
    let p := leastLoad loads s
    let cost := match costs with
      | none => 1
      | some l => l.getD o 1
    let (rest, out) := placeRun costs s n (o + 1) (loads.set p (loads.getD p 0 + cost))
    ((o, p) :: rest, out)

/-- Ordinals of a placement round: W = P × S. -/
def Nest.roundSize (n : Nest) : Nat := n.parts * (8 / recCores n.words) * (4 / recSpc n.words)

/-- Computes the next round. -/
def Nest.placeRound (n : Nest) (pseed : Word) : Nest :=
  let k := min n.roundSize (n.count - n.placed)
  let (l, loads) := placeRun n.costs (pseed.toNat % n.parts) k n.placed n.loads
  { n with todo := n.todo ++ l, loads := loads, placed := n.placed + k, round := n.round + 1 }

/-! ### Activation -/

/-- The class of the entry point used for the class in force, and whether no suitable one exists (R69). -/
def entryClass (mask cls : Nat) : Nat × Bool :=
  match (List.range 4).find? fun c => cls ≤ c && mask / 2 ^ c % 2 = 1 with
  | some c => (c, false)
  | none => (((List.range 4).reverse.find? fun c => mask / 2 ^ c % 2 = 1).getD 0, true)

/-- The cost table: its entries, nothing where the record has none or it cannot be read, and then an event (R223). -/
def State.readCosts (s : State) (c : Client) (key : Nat) (addr : Word) (w : Vector Word 8) : State × Option (Option (List Nat)) :=
  if w[6] = 0 then (s, some none) else
    let n := recCount w[0]
    let (s1, r) := (List.range n).foldl (fun (acc : State × Res (List Nat)) i => match acc.2 with
      | .ok l => match acc.1.readVa c (w[6] + wd (2 * i)) 2 with
        | (x, .ok v) => (x, .ok (v :: l))
        | (x, .fault e) => (x, .fault e)
        | (x, .stall k) => (x, .stall k)
      | _ => acc) (s, .ok [])
    match r with
    | .ok l => (s1, some (some l.reverse))
    | .fault _ => (s1.event key (evPayload 0x12 0 addr.toNat), some none)
    | .stall _ => (s1, none)

/-- Pops the head of a queue. -/
def Rank.pop (r : Rank) (q : Nat) : Rank := { r with queues := vset r.queues q ((vget r.queues [] q).drop 1) }

/-- A well-formed head becomes an active nest (R219). -/
def State.activate (s : State) (key : Nat) (r : Rank) (q : Nat) (e : QueueEntry) (w : Vector Word 8) : State :=
  match s.readCosts (r.client key) key e.addr w with
  | (s1, none) => s1
  | (s1, some costs) =>
    let (cls, unmet) := entryClass (fld w[1] 39 36) r.cls.toNat
    let n : Nest :=
      { rank := key, addr := e.addr, words := w, priv := e.priv, launched := e.sluice
        entry := w[2] + wd (4 * fld w[3] (16 * cls + 15) (16 * cls)), cls := BitVec.ofNat 2 cls, parts := r.parts
        costs := costs, loads := List.replicate r.parts 0, round := 0, placed := 0, todo := [], dispatched := 0
        triggered := 0, retired := 0, trigDone := false }
    let s2 := if unmet then s1.event key (evPayload 0x13 (r.cls.toNat * 256 + cls * 1024) e.addr.toNat) else s1
    { s2.updRank key fun v => v.pop q with
      nests := tabPut s2.nests s2.ids (n.placeRound r.pseed)
      ids := s2.ids + 1 }

/-- What the head of a queue comes to: blocked by its waits, or waiting for a page of its record that comes next (R135). -/
inductive Head where
  | empty
  | blocked
  | waiting
  | malformed (cause : BitVec 8)
  | ready (w : Vector Word 8)
  deriving DecidableEq, Repr

/-- The head of a queue (R219). -/
def State.headOf (s : State) (key : Nat) (r : Rank) (q : Nat) : State × Head :=
  match (vget r.queues [] q).head? with
  | none => (s, .empty)
  | some e => match s.readRecord (r.client key) e.addr with
    | (s1, .fault c) => (s1, .malformed c)
    | (s1, .stall _) => (s1, .waiting)
    | (s1, .ok w) =>
      (s1, if badWaits w then .malformed 0
        else if !r.waitsMet w then .blocked
        else if badRecord w then .malformed 0 else .ready w)

/-- The highest-priority queue whose head is ready is served (R219); a malformed record is popped and reported (R221). While it
is not known whether a head is ready, no lower queue is served. -/
def State.activateFrom (s : State) (key : Nat) (r : Rank) : List Nat → State
  | [] => s
  | q :: rest =>
    let e := ((vget r.queues [] q).head?).getD ⟨0, false, false⟩
    match s.headOf key r q with
    | (s1, .empty) => s1.activateFrom key r rest
    | (s1, .blocked) => s1.activateFrom key r rest
    | (s1, .waiting) => s1
    | (s1, .malformed c) => (s1.updRank key fun v => v.pop q).event key (evPayload 0x11 (c.toNat * 256) e.addr.toNat)
    | (s1, .ready w) => s1.activate key r q e w

/-- The active nests of a rank, in the order of their activation (R220). -/
def State.nestsOf (s : State) (key : Nat) : List (Nat × Nest) := s.nests.filter fun e => e.2.rank = key

/-- The rank's package switches its gangs out for a warm stop, and starts none meanwhile (R293). -/
def State.halting (s : State) (r : Rank) : Bool := (s.pkg (pkgOf r.home)).stopping

/-- NEST_ACTIVATE (R219): the rank has fewer than 16 active nests, and neither a boundary of it (R36) nor a warm stop is under
way. -/
def execNestActivate (rank : Nat) (s : State) : Host.Outcome State Fault Refusal :=
  .next (match s.rank? rank with
    | none => s
    | some r =>
      if (s.nestsOf rank).length ≥ 16 || r.stepping.isSome || s.halting r then s else s.activateFrom rank r (List.range 4))

/-! ### Fitting a gang into a slot (R225) -/

/-- The free banks of a core, lowest first. -/
def State.freeBanks (s : State) (core : Nat) : List Nat :=
  (List.range 4).filter fun b => (s.onBank (bankOf core b)).isNone

/-- The tile windows in use on a core: base and size. -/
def State.windows (s : State) (core : Nat) : List (Nat × Nat) :=
  s.strands.filterMap fun e => match e.2.place with
    | some l => if locCore l = core then some (e.2.base, e.2.size) else none
    | none => none

/-- The lowest base of a window of `size` tiles that overlaps none of the others. -/
def findBase (used : List (Nat × Nat)) (size : Nat) : Option Nat :=
  (List.range (65 - size)).find? fun b => used.all fun w => b + size ≤ w.1 || w.1 + w.2 ≤ b

/-- Bases of `n` windows, lowest first. -/
def findBases (used : List (Nat × Nat)) (size : Nat) : Nat → Option (List Nat)
  | 0 => some []
  | n + 1 => match findBase used size with
    | none => none
    | some b => (findBases ((b, size) :: used) size n).map fun l => b :: l

/-- Segments of a core's LS that are FREE or IDLE. -/
def State.openSegs (s : State) (core : Nat) : Nat :=
  24 - (s.lsSeg.filter fun e => core * 32 ≤ e.1 && e.1 < core * 32 + 24 && e.2.state ≠ .idle).length

/-- A gang fits a core: the banks and window bases of its strands there (R225). -/
def State.fitCore (s : State) (w : Vector Word 8) (core : Nat) : Option (List (Nat × Nat)) :=
  let spc := recSpc w
  let banks := s.freeBanks core
  if banks.length < spc || s.openSegs core < fld w[1] 32 28 then none
  else (findBases (s.windows core) (recTiles w) spc).map fun bases => ((banks.take spc).map (bankOf core)).zip bases

/-- A gang fits slot `k` of a cluster: for every member in order, its bank and window base. -/
def State.fitSlot (s : State) (w : Vector Word 8) (cluster k : Nat) : Option (List (Nat × Nat)) :=
  let c := recCores w
  (List.range c).foldl (fun acc i => match acc, s.fitCore w (coreOf cluster (k * c + i)) with
    | some l, some x => some (l ++ x)
    | _, _ => none) (some [])

/-- The slots of a cluster for a gang shape. -/
def slotsOf (w : Vector Word 8) : List Nat := List.range (8 / recCores w)

/-! ### Partitions -/

/-- Binds a logical partition to a cluster. -/
def State.bindPartition (s : State) (key lp cluster : Nat) : State :=
  let s1 := s.updRank key fun r => { r with clusters := tabPut r.clusters lp cluster }
  { s1 with
    owner := tabPut s1.owner cluster (key, lp)
    csSeg := s1.csSeg.map fun e =>
      if cluster * 256 ≤ e.1 && e.1 < cluster * 256 + 256 && e.2.rank = key && e.2.holder = lp && e.2.state = .idle then
        (e.1, { e.2 with state := .active })
      else e }

/-- The lowest-numbered cluster of a die that belongs to no rank. -/
def State.freeCluster (s : State) (d : DieKey) : Option Nat :=
  ((List.range 8).map fun c => d.toNat + c * 2 ^ 12).find? fun k => (tabGet s.owner k).isNone

/-- A partition that has not been swapped out, and that has no cluster, takes the lowest free one of the home die. -/
def State.placePartition (s : State) (key lp : Nat) : State :=
  match s.rank? key with
  | none => s
  | some r =>
    if (tabGet r.clusters lp).isSome || r.out.contains lp || r.asleep || lp ≥ r.parts || s.halting r then s
    else match s.freeCluster r.home with
      | none => s
      | some k => s.bindPartition key lp k

/-! ### Dispatch -/

/-- Index of an ordinal in dimension `d` (R222). -/
def indexOf (w : Vector Word 8) (o d : Nat) : Nat :=
  let n := fun j => let b := recBound w[0] (recOrder w[1] j); if b = 0 then 1 else b
  let i3 := o % n 3
  let i2 := o / n 3 % n 2
  let i1 := o / n 3 / n 2 % n 1
  let i0 := o / n 3 / n 2 / n 1
  let at_ := fun j => if j = 0 then i0 else if j = 1 then i1 else if j = 2 then i2 else i3
  ((List.range 4).find? fun j => recOrder w[1] j = d).elim 0 at_

/-- The lane LFSRs at dispatch: lane l holds l + 1 (R44). -/
def lanesReset : BitVec 32768 := BitVec.ofNat 32768 (packNat 32 ((List.range 1024).map (· + 1)))

/-- The state in which a strand starts (R44, R76, R78, R84, R127). -/
def strandAt (r : Rank) (n : Nest) (gang member o : Nat) (loc base : Nat) : Strand :=
  let st : StreamSt := { pc := n.entry, pos := 0, delay := 0, target := 0, wait := .none }
  let g : Vector Word 64 := Vector.ofFn fun (i : Fin 64) =>
    if 1 ≤ i.val && i.val ≤ 4 then wd (indexOf n.words o (i.val - 1)) else if i.val = 5 then wd o else 0
  { rank := n.rank, gang := gang, member := member, place := some loc, priv := n.priv, c := st, l := st, x := st, s := st
    walk := [], boq := [], g := g, tok := Vector.replicate 16 0, masks := [BitVec.allOnes 1024], lanes := lanesReset
    win := 256, base := base, size := recTiles n.words, nrot := fld n.words[1] 27 21, rrb := 0
    tcfg := Vector.replicate 64 0, tstat := Vector.replicate 64 0, lease := .none, rnd := 0, ieee := false, lfLane := 0
    lfAuto := false, mEntry := 0, mWord := 0, feGroup := 0, stepv := r.gstep, bindA := Vector.replicate 64 0
    bindB := Vector.replicate 64 0, dmap := r.dmap, cmds := [], asts := [], prog := [], frame := Vector.replicate 9 0
    noted := [], errq := [], errOvf := false, trig := false, state := .run, saved := [], acq := none, colls := []
    early := [], taker := none }

/-- Dispatches an ordinal of a nest to a slot (R225, R44). -/
def State.dispatch (s : State) (r : Rank) (nid : Nat) (n : Nest) (lp o cluster slot : Nat) (seats : List (Nat × Nat)) : State :=
  let gid := s.ids
  let uids := natRange (gid + 1) seats.length
  let gang : Gang :=
    { rank := n.rank, nest := nid, ordinal := o, lp := lp, cluster := cluster
      first := coreOf cluster (slot * recCores n.words), cores := recCores n.words, spc := recSpc n.words, resident := true
      live := uids, trigs := [], triggered := false, image := none, left := 0, saved := [] }
  let strands := (seats.zipIdx.zip uids).foldl (fun (t : Tab Strand) e =>
    tabPut t e.2 (strandAt r n gid e.1.2 o e.1.1.1 e.1.1.2)) s.strands
  { s with
    gangs := tabPut s.gangs gid gang
    strands := strands
    ids := gid + 1 + seats.length
    nests := tabPut s.nests nid { n with todo := n.todo.filter (fun e => e.1 ≠ o), dispatched := n.dispatched + 1 } }

/-- The next round is computed when an ordinal of the last computed round is the first of it to be dispatched (R223). -/
def State.nextRound (s : State) (r : Rank) (nid : Nat) (o : Nat) : State :=
  s.updNest nid fun n =>
    if n.placed < n.count && o / n.roundSize + 1 = n.round then n.placeRound r.pseed else n

/-- A job is about to switch out a gang of a nest (R230). -/
def State.nestLeaving (s : State) (r : Rank) (nid : Nat) : Bool :=
  r.jobs.any fun j => j.gangs.any fun g => (s.gang? g).any fun v => v.nest = nid

/-- A nest has a gang that is switched out, or that a job is about to switch out (R66, R230). -/
def State.nestHeld (s : State) (r : Rank) (nid : Nat) : Bool :=
  s.nestLeaving r nid || s.gangs.any fun e => e.2.nest = nid && !e.2.resident

/-- A job is about to switch out a partition, or every gang of the rank (R229). -/
def Rank.leaving (r : Rank) (lp : Nat) : Bool :=
  r.jobs.any fun j => match j.follow with
    | .exchange p _ _ _ _ => p = lp
    | .preempt _ _ => false
    | _ => true

/-- The gangs on the resume list of a partition that may be resumed now, in their order, with the slot that each fits (R230): none
of a nest of which a job is still to switch out a gang, so that no higher ordinal runs while a lower one is out (R65). One that fits no
slot, or whose accumulator names are not FREE, holds back neither the gangs of later nests nor fresh dispatches (log 110). -/
def State.resumable (s : State) (key : Nat) (r : Rank) (lp cluster : Nat) : Option (Nat × Gang × Nest × Nat × List (Nat × Nat)) :=
  let held := s.gangs.filter fun e => e.2.rank = key && !e.2.resident
  let mine := sortBy (fun e => e.2.nest * 2 ^ 33 + e.2.ordinal) (held.filter fun e => e.2.lp = lp)
  mine.findSome? fun e =>
    let (gid, g) := e
    if s.nestLeaving r g.nest || held.any fun x => x.2.nest = g.nest && x.2.ordinal < g.ordinal then none
    else match s.nest? g.nest with
      | none => none
      | some n => (slotsOf n.words).findSome? fun k => match s.fitSlot n.words cluster k with
        | none => none
        | some seats =>
          let free := s.strands.all fun x => x.2.gang ≠ gid || x.2.saved.all fun j =>
            (tabGet s.accOwner (unitKey (coreOf cluster (k * g.cores + x.2.member / g.spc)) j)).isNone
          if free then some (gid, g, n, k, seats) else none

/-- GANG_DISPATCH (R225): with nothing to resume at the partition, the first nest in activation order that is not held back
and whose lowest undispatched ordinal there fits a slot, into the lowest slot that it fits. By R225 a slot takes several gangs as long as
its cores have room; that R490 has four one-core gangs dispatched into slots 0 to 3 is not followed (log 122). -/
def execGangDispatch (rank : Nat) (lp : Nat) (s : State) : Host.Outcome State Fault Refusal :=
  let s0 := s.placePartition rank lp
  .next (match s0.rank? rank with
    | none => s
    | some r => match tabGet r.clusters lp with
      | none => s
      | some cluster =>
        if r.leaving lp || s0.halting r || (s0.resumable rank r lp cluster).isSome then s0 else
          match (s0.nestsOf rank).findSome? fun e =>
              if s0.nestHeld r e.1 then none
              else match leastBy (·.1) (e.2.todo.filter fun x => x.2 = lp) with
                | none => none
                | some (o, _) => (slotsOf e.2.words).findSome? fun k =>
                  (s0.fitSlot e.2.words cluster k).map fun seats => (e.1, e.2, o, k, seats) with
          | none => s0
          | some (nid, n, o, k, seats) => (s0.dispatch r nid n lp o cluster k seats).nextRound r nid o)

end Sys2Proof.Machine
end

