-- ==== Sys2Proof/Machine/Warm.lean ====
section
/-! DEFINITION. What a package loses when it is switched off, and what a warm stop keeps for the resume reconciliation
(R279, R291, R293, R294). -/

namespace Sys2Proof.Machine

/-- The dies of a package. -/
def diesOf (p : Pkg) : List DieKey := (List.range 4).map fun d => BitVec.ofNat 12 (p.toNat + d * 1024)

/-- A place number of a die, cluster, core or bank lies in a package: its lowest ten bits name it (R78). -/
def inPkg (p : Pkg) (place : Nat) : Bool := place % 1024 = p.toNat

/-- The byte address lies in a store of a package: 0 HBM4E, 1 LPDDR-6, 2 LS, 3 CS, 4 DS. -/
def storeIn (p : Pkg) (store a : Nat) : Bool :=
  a / 2 ^ 64 = store &&
    inPkg p (if store ≤ 1 then a % 2 ^ 64 / 2 ^ 40 else if store = 4 then a % 2 ^ 64 / 2 ^ 28 else a % 2 ^ 64 / 2 ^ 24)

/-- The rank is homed in a package. -/
def Rank.inPkg (p : Pkg) (r : Rank) : Bool := pkgOf r.home = p

/-- The ranks, nests, gangs and strands of a package. -/
def State.ranksIn (s : State) (p : Pkg) : Tab Rank := s.ranks.filter fun e => e.2.inPkg p
def State.mine (s : State) (p : Pkg) (rank : Nat) : Bool := (s.rank? rank).any fun r => r.inPkg p

/-- What the endpoints of a die hold for collectives (R264, R265). -/
def Msg.kept (q : Msg) : Bool :=
  q.arrived && match q.body with
    | .coll _ => true
    | .resend _ => true
    | .abort _ _ _ => true
    | _ => false

/-- Messages that stand at a package when it is switched off are lost: they stay, and go nowhere, until they time out (R257). What
its endpoints hold survives a warm stop with the ranks. -/
def State.cutMessages (s : State) (p : Pkg) (warm : Bool) : State :=
  { s with msgs := s.msgs.map fun m =>
      if warm && m.kept then m
      else if m.at_ = p || (m.arrived && pkgOf m.dst = p) then { m with at_ := p, arrived := false, hops := lostHops } else m }

/-- A command that another package's Sluice has accepted and that the package can no longer carry out completes there (R280):
pre-emptions as those of a rank that is not reached (R283). -/
def State.cutCommands (s : State) (p : Pkg) : State :=
  let jobs := (s.ranksIn p).flatMap fun e => e.2.jobs.filterMap fun j => match j.follow with
    | .preempt k t => some (k, t)
    | .exchange _ _ _ k t => some (k, t)
    | _ => none
  jobs.foldl (fun (acc : State) e => acc.finish (BitVec.ofNat 10 e.1) e.2 0xF2 0) s

/-- The ranks of a package are gone, and with them their nests, gangs and strands, and what these own. -/
def State.dropRanks (s : State) (p : Pkg) : State :=
  let s0 := s.cutCommands p
  let gone := fun (rank : Nat) => s0.mine p rank
  { s0 with
    strands := s0.strands.filter fun e => !gone e.2.rank
    gangs := s0.gangs.filter fun e => !gone e.2.rank
    nests := s0.nests.filter fun e => !gone e.2.rank
    ranks := s0.ranks.filter fun e => !e.2.inPkg p
    accOwner := s0.accOwner.filter fun e => !inPkg p (e.1 / 64)
    array := s0.array.filter fun e => !inPkg p e.1
    arrayLast := s0.arrayLast.filter fun e => !inPkg p e.1
    arrayReq := s0.arrayReq.filter fun e => !inPkg p e.1
    lsSeg := s0.lsSeg.filter fun e => !inPkg p (e.1 / 32)
    csSeg := s0.csSeg.filter fun e => !inPkg p (e.1 / 256)
    owner := s0.owner.filter fun e => !inPkg p e.1
    shadowTile := s0.shadowTile.filter fun e => !gone e.2.rank
    shadowAcc := s0.shadowAcc.filter fun e => !gone e.2.rank
    cur := match s0.cur with
      | some (u, t) => if (s0.strand u).any (fun m => gone m.rank) then none else some (u, t)
      | none => none }

/-- A package's SRAM is scrubbed (R290, step 5): scratchpads and their full-empty bits, tiles, accumulators, codebooks, and the
tables of its dies with the rank images. The management plane's counts and thresholds stay. -/
def State.scrubSram (s : State) (p : Pkg) : State :=
  let s0 := s.dropRanks p
  let sram := fun (a : Nat) => storeIn p 2 a || storeIn p 3 a || storeIn p 4 a
  { s0 with
    mem := s0.mem.filter fun e => !(sram e.1)
    fe := s0.fe.filter fun g => !(inPkg p (g * 16 / 2 ^ 24))
    tiles := s0.tiles.filter fun e => !inPkg p (e.1 / 64)
    accs := s0.accs.filter fun e => !inPkg p (e.1 / 64)
    books := s0.books.filter fun e => !inPkg p e.1
    dies := s0.dies.map fun e => if inPkg p e.1 then (e.1, { Die.reset with counters := e.2.counters, limits := e.2.limits }) else e }

/-- A package is without power: its SRAM state is gone, with all of its dies' tables; DRAM is kept or lost. -/
def State.powerDown (s : State) (p : Pkg) (keepDram : Bool) : State :=
  let s0 := (s.cutMessages p keepDram).scrubSram p
  { s0 with
    mem := s0.mem.filter fun e => keepDram || !(storeIn p 0 e.1 || storeIn p 1 e.1)
    dies := s0.dies.filter fun e => !inPkg p e.1 }

/-- Something that a warm stop must let end is on its way: a write of a strand of the package (R243), or a request, release or
grant of a cell that one of the package's dies sends or serves (R209). -/
def State.inFlight (s : State) (p : Pkg) : Bool :=
  s.msgs.any fun q => match q.body with
    | .cellReq _ _ => pkgOf q.src = p || pkgOf q.dst = p
    | .cellRel _ _ => pkgOf q.src = p || pkgOf q.dst = p
    | .cellGrant _ _ _ => pkgOf q.src = p || pkgOf q.dst = p
    | b => b.writeOf.any fun u => (s.strand u).any fun m => s.mine p m.rank

/-- What the warm stop writes into the warm-save area (R293, step 2). -/
def State.warmSave (s : State) (p : Pkg) : WarmSave :=
  { ranks := s.ranksIn p
    gangs := s.gangs.filter fun e => s.mine p e.2.rank
    nests := s.nests.filter fun e => s.mine p e.2.rank
    strands := s.strands.filter fun e => s.mine p e.2.rank
    polders := (diesOf p).map fun d => (d.toNat, (s.die d).polders)
    holds := (diesOf p).map fun d => (d.toNat, (s.die d).holds)
    cells := (diesOf p).map fun d => (d.toNat, (s.die d).cells)
    shadowTile := s.shadowTile.filter fun e => s.mine p e.2.rank
    shadowAcc := s.shadowAcc.filter fun e => s.mine p e.2.rank
    ds := s.mem.filter fun e => storeIn p 4 e.1 }

/-- A package's registers after it has been switched off: the flash keeps the start log, the identity and what decides
whether the next start is continued (R10, R292); everything else takes its reset value. -/
def Package.off (k : Package) (warm : Option WarmSave) : Package :=
  { Package.reset with
    kind := k.kind
    warmok := warm.isSome
    trip := k.trip
    log := k.log
    lastKind := k.lastKind
    resumable := k.resumable
    flash := k.flash
    warm := warm
    shards := if warm.isSome then k.shards else []
    parity := if warm.isSome then k.parity else [] }

end Sys2Proof.Machine
end

