-- ==== Sys2Proof/Machine/Switch.lean ====
section
/-! DEFINITION. Switching gangs out and resuming them (R91 to R94, R229 to R233), what follows a job of switch-outs, the
exchange of a partition swap, and the end of a strand by the runtime (R250, R265). -/

namespace Sys2Proof.Machine

/-! ### End by the runtime -/

/-- Abandons the commands of a strand: they count no more into PENDING (R148, R265). It waits while the page of a counter's
save frame is held. -/
def State.abandonCmds (s : State) (u : Nat) (m : Strand) : Tab Cmd → Try State
  | [] => .ok s
  | (slot, k) :: rest => match s.clientOf m with
    | none => .ok s
    | some c => match s.abandon u slot c k with
      | .ok x => x.abandonCmds u m rest
      | o => o

/-- A strand ends as by End (R250): its collectives are aborted, its commands abandoned, and it leaves its gang at once; its
bank is free once no remote write of it is on its way (R243). It waits while it cannot end, for a lock word in a page that is to be
swept or copied first (R135, R273) among others. -/
def State.killStrand (s : State) (u : Nat) : Try State :=
  match s.strand u with
  | none => .ok s
  | some m => match s.endWait u, s.abortAll m with
    | some x, _ => .error x
    | none, .error x => .error x
    | none, .ok s0 => (s0.abandonCmds u m m.cmds).map fun s1 =>
      let quiet : StreamSt → StreamSt := fun p => { p with wait := .none }
      let s2 := (s1.upd u fun n => { n with
        cmds := [], asts := [], noted := [], prog := [], c := quiet n.c, l := quiet n.l, x := quiet n.x, s := quiet n.s
        state := .ended }).leaveGang u
      if s2.writesOut u then s2 else (s2.reportErrors u).freeBank u

/-- Ends strands one after another. -/
def State.killAll (s : State) : List Nat → Try State
  | [] => .ok s
  | u :: rest => match s.killStrand u with
    | .ok s1 => s1.killAll rest
    | o => o

/-! ### One gang -/

/-- The resident strands of a gang that have not ended. -/
def State.members (s : State) (gid : Nat) : List (Nat × Strand) :=
  s.strands.filter fun e => e.2.gang = gid && e.2.place.isSome && e.2.state ≠ .ended

/-- A gang is halted: nothing of it is in flight, no fault awaits its stop (R91), but for what a FAULTED strand meets when it
runs again (R250), and no strand stands at an EXIT that waits for nothing more, which retires first (R59). -/
def State.halted (s : State) (gid : Nat) : Bool :=
  (s.members gid).all fun e => !e.2.busy && (e.2.noted.isEmpty || e.2.state = .faulted) &&
    (s.exitDue (BitVec.ofNat 20 (e.2.place.getD 0))).isNone

/-- The lowest free context image of a rank (R231). -/
def State.freeImage (s : State) (key : Nat) (r : Rank) : Option Nat :=
  (List.range r.nimg).find? fun j => s.gangs.all fun e => !(e.2.rank = key && e.2.image = some j)

/-- A strand's own part of a switch-out: it waits again on resumption, its running commands stop, and a HELD lease is
LAPSED (R91, R93). A parked bank is no longer parked (R91). -/
def Strand.leave (m : Strand) (saved : List Nat) : Strand :=
  { m with
    place := none
    saved := saved
    cmds := m.cmds.map fun e => (e.1, e.2.stop)
    c := { m.c with wait := .none }
    l := { m.l with wait := .none }
    x := { m.x with wait := .none }
    s := { m.s with wait := .none }
    lease := match m.lease with
      | .held _ _ => .lapsed
      | l => l
    state := match m.state with
      | .parked _ => .run
      | b => b }

/-- Switches out the strands of a gang one after another: tiles and banks, and then the bank frame (R92). -/
def State.leaveAll (s : State) (gid : Nat) (g : Gang) (image : Nat) : List Nat → Try State
  | [] => .ok s
  | u :: rest => match s.strand u with
    | none => s.leaveAll gid g image rest
    | some m =>
      if m.gang ≠ gid || m.place.isNone then s.leaveAll gid g image rest else
        let core := locCore (m.place.getD 0)
        let banks := s.ownedBanks core u
        match s.saveUnits u m g image core with
        | .error x => .error x
        | .ok s1 => match s1.saveFrame u (m.leave banks) image with
          | .error x => .error x
          | .ok s2 => ((s2.dropArray u).setStrand u (m.leave banks)).leaveAll gid g image rest

/-- What a gang, or its partition, has begun at segments of LS and CS ends (R160). -/
def State.endMoves (s : State) (gid : Nat) (g : Gang) : Try State :=
  (s.settleSegs false g.rank gid s.lsSeg).bind fun x => x.settleSegs true g.rank g.lp x.csSeg

/-- A halted gang's state is saved: strands, tiles and banks, and its LS segments become IDLE (R229, R233). A save or restore of a segment
that it, or its partition, has begun ends first (R160). It waits while a page of its image, or of such a segment's frame, is held. -/
def State.switchGang (s : State) (gid : Nat) (g : Gang) (image : Nat) : Try State :=
  ((s.endMoves gid g).bind fun x => x.leaveAll gid g image ((x.members gid).map (·.1))).map fun s1 =>
    let s2 := s1.updGang gid fun x => { x with resident := false, image := some image, left := s1.ids }
    { s2 with
      ids := s2.ids + 1
      lsSeg := s2.lsSeg.map fun e =>
        if e.2.rank = g.rank && e.2.holder = gid && e.2.state = .active then (e.1, { e.2 with state := .idle }) else e
      cur := match s2.cur with
        | some (u, t) => if (s2.strand u).any (fun m => m.gang = gid) then none else some (u, t)
        | none => none }

/-! ### What follows a job -/

/-- Scratchpads and shadow slots of ranks go into their frames, rank after rank. It waits while a frame's page is held. -/
def State.carryRanks (s : State) : List Nat → Try State
  | [] => .ok s
  | k :: rest => match s.rank? k with
    | none => s.carryRanks rest
    | some r => match s.carryStores k r with
      | .ok x => x.carryRanks rest
      | o => o

/-- Migrations that the loss of a package's power ends: one to a die of the package is abandoned, since the die is not reached any
more (R270, log 101), and with `own` what those of the package's own ranks have taken elsewhere returns. -/
def State.cutMoves (s : State) (p : Pkg) (own : Bool) : State :=
  s.ranks.foldl (fun (acc : State) e => match e.2.precopy with
    | none => acc
    | some q =>
      if e.2.inPkg p then (if own then acc.giveBack q else acc)
      else if pkgOf q.target = p then acc.abandonMove e.1 0 q.target else acc) s

/-- A cold power-down (R279, R294). -/
def State.coldOff (s : State) (p : Pkg) : State :=
  ((s.cutMoves p true).powerDown p false).updPkg p fun k => k.off none

/-- The package is switched off warm once none of its ranks has a gang left to switch out (R293, steps 2 to 5): scratchpads
and shadow slots go into the frames first, since SRAM loses its contents. Nothing happens while a frame's page is held. -/
def State.warmOff (s : State) (p : Pkg) : State :=
  s.attempt ((s.carryRanks ((s.ranksIn p).map (·.1))).map fun s1 =>
    let s2 := s1.cutMoves p false
    (s2.powerDown p true).updPkg p fun k => k.off (some (s2.warmSave p)))

/-- A rank of a package still has gangs to switch out, or one resident, for a warm stop, or something that the stop must let
end is on its way. -/
def State.warmOpen (s : State) (p : Pkg) : Bool :=
  s.inFlight p || (s.ranksIn p).any fun e => e.2.jobs.any (fun j => j.follow = .warm p.toNat) ||
    s.gangs.any fun g => g.2.rank = e.1 && g.2.resident

/-- The package is switched off once nothing of it has still to be switched out (R293). -/
def State.warmEnd (s : State) (p : Pkg) : State :=
  if (s.pkg p).stopping && !s.warmOpen p then s.warmOff p else s

/-- Jobs at the head with no gang left: what follows them is done, but for an exchange, which has a row of its own, and for a
flip that must wait. -/
def State.jobsDone (s : State) (key : Nat) : Nat → State
  | 0 => s
  | fuel + 1 => match s.rank? key with
    | none => s
    | some r => match r.jobs with
      | [] => s.warmEnd (pkgOf r.home)
      | j :: rest =>
        if !j.gangs.isEmpty then s else
          let s1 := s.updRank key fun v => { v with jobs := rest }
          match j.follow with
          | .exchange _ _ _ _ _ => s
          | .preempt p t => (s1.finish (BitVec.ofNat 10 p) t 0 0).jobsDone key fuel
          | .flip => match s1.flipRest key with
            | .error x => s.asksOf x
            | .ok s2 => s2.jobsDone key fuel
          | .warm p => (s1.jobsDone key fuel).warmEnd (BitVec.ofNat 10 p)

def State.nextJobs (s : State) (key : Nat) : State :=
  match s.rank? key with
  | none => s
  | some r => s.jobsDone key (r.jobs.length + 1)

/-- The head job loses its first gang. -/
def State.popGang (s : State) (key : Nat) : State :=
  s.updRank key fun r => { r with jobs := match r.jobs with
    | [] => []
    | j :: rest => { j with gangs := j.gangs.drop 1 } :: rest }

/-- The IMAGE_EXHAUSTED event (R231, R252). -/
def State.imageEvent (s : State) (key : Nat) (g : Gang) : State :=
  let addr := match s.nest? g.nest with
    | some n => n.addr.toNat
    | none => 0
  s.event key (evPayload 0x14 (g.ordinal % 2 ^ 32 * 2 ^ 32) addr)

/-- No context image is free for the gang at the head (R231, R270): a pre-emption ends with status 2, a migration is
abandoned, and a warm stop ends the gang once it can end. -/
def State.exhausted (s : State) (key : Nat) (g : Gang) (j : SwitchJob) : State :=
  let s1 := s.imageEvent key g
  let drop := fun (x : State) => x.updRank key fun r => { r with jobs := r.jobs.drop 1 }
  match j.follow with
  | .preempt p t => ((drop s1).finish (BitVec.ofNat 10 p) t 2 0).nextJobs key
  | .exchange _ _ _ p t => ((drop s1).finish (BitVec.ofNat 10 p) t 2 0).nextJobs key
  | .flip => (((drop s1).abandonMove key 1 (((s.rank? key).bind (·.precopy)).elim 0 (·.target))).lateOrders key).nextJobs key
  | .warm _ => s.attempt ((s1.killAll g.live).map fun s2 => (s2.popGang key).nextJobs key)

/-- GANG_SWITCH_OUT (R229 to R231): the next gang of a rank's first job, in the order of R230. -/
def execGangSwitchOut (rank : Nat) (s : State) : Host.Outcome State Fault Refusal :=
  .next (match s.rank? rank with
    | none => s
    | some r => match r.jobs with
      | [] => s.warmEnd (pkgOf r.home)
      | j :: _ => match j.gangs with
        | [] => s.nextJobs rank
        | gid :: _ => match s.gang? gid with
          | none => (s.popGang rank).nextJobs rank
          | some g =>
            if !g.resident then (s.popGang rank).nextJobs rank
            else if !s.halted gid then s
            else match g.image.or (s.freeImage rank r) with
              | none => s.exhausted rank g j
              | some image => s.attempt ((s.switchGang gid g image).map fun s1 => (s1.popGang rank).nextJobs rank))

/-- PARTITION_EXCHANGE_DONE (R229): the partition leaves its cluster, and the incoming one takes it. An incoming partition that has taken
a cluster meanwhile, or whose rank has moved, can no longer enter: nothing is swapped in, and the status is 0 all the same (log 116). -/
def execPartitionExchangeDone (rank : Nat) (s : State) : Host.Outcome State Fault Refusal :=
  .next (match s.rank? rank with
    | none => s
    | some r => match r.jobs with
      | [] => s
      | j :: rest => match j.follow, j.gangs with
        | .exchange lp inRank inLp p t, [] =>
          match tabGet r.clusters lp with
          | none => ((s.updRank rank fun v => { v with jobs := rest }).finish (BitVec.ofNat 10 p) t 0 0).nextJobs rank
          | some cluster =>
            let s1 := (s.unbindPartition rank lp).updRank rank fun v => { v with jobs := rest, out := natIns v.out lp }
            let s2 := match inRank with
              | none => s1
              | some k => match s1.rank? k with
                | none => s1
                | some q =>
                  if (tabGet q.clusters inLp).isSome || q.home ≠ locDie cluster then s1
                  else (s1.updRank k fun v => { v with out := v.out.filter (· ≠ inLp) }).bindPartition k inLp cluster
            (s2.finish (BitVec.ofNat 10 p) t 0 0).nextJobs rank
        | _, _ => s)

/-! ### Resuming a gang -/

/-- A strand takes its new place (R93): as many of its stopped commands restart there as the core has room for, unless the bank is
FAULTED (R3). -/
def Strand.arrive (m : Strand) (loc base room : Nat) : Strand :=
  { m with
    place := some loc
    base := base
    saved := []
    cmds := if m.state = .faulted then m.cmds.map fun e => (e.1, { e.2 with core := locCore loc })
      else wakeCmds (locCore loc) room m.cmds }

/-- Banks released under an AST that has still to issue are DRAINING again where the strand runs on (R153, R247). -/
def State.drainEarly (s : State) (u core : Nat) (m : Strand) : State :=
  if m.state = .faulted then s
  else m.early.foldl (fun (acc : State) e => acc.setDraining u core e.2 true) s

/-- Places the strands of a resumed gang, each with its units and its bank frame (R92). It waits while a page of its image is
held. -/
def State.arriveAll (s : State) (gid : Nat) (g : Gang) (seats : List (Nat × Nat)) : Tab Strand → Try State
  | [] => .ok s
  | (u, m) :: rest => match seats[m.member]?, g.image with
    | some (loc, base), some image =>
      let core := locCore loc
      match s.loadFrame m image with
      | .error x => .error x
      | .ok (x, m1) => match x.loadUnits u m gid g core base with
        | .error y => .error y
        | .ok y =>
          let z := y.drainEarly u core m
          (z.setStrand u (m1.arrive loc base (z.cmdRoom core))).arriveAll gid g seats rest
    | _, _ => s.arriveAll gid g seats rest

/-- A gang is resumed in a slot of a cluster (R230): its segments still IDLE there are ACTIVE again (R157). It waits while a
page of its image is held. -/
def State.resumeGang (s : State) (gid : Nat) (g : Gang) (cluster slot : Nat) (seats : List (Nat × Nat)) : Try State :=
  let first := coreOf cluster (slot * g.cores)
  (s.arriveAll gid g seats (s.strands.filter fun e => e.2.gang = gid && e.2.place.isNone)).map fun s0 =>
    let s1 := s0.updGang gid fun x => { x with resident := true, cluster := cluster, first := first }
    { s1 with lsSeg := s1.lsSeg.map fun e =>
        if e.2.rank = g.rank && e.2.holder = gid && e.2.state = .idle && e.1 / 32 = coreOf cluster (slot * g.cores + e.2.gcore) then
          (e.1, { e.2 with state := .active })
        else e }

/-- GANG_RESUME (R230). -/
def execGangResume (rank : Nat) (lp : Nat) (s : State) : Host.Outcome State Fault Refusal :=
  let s0 := s.placePartition rank lp
  .next (match s0.rank? rank with
    | none => s
    | some r => match tabGet r.clusters lp with
      | none => s
      | some cluster =>
        if r.leaving lp || s0.halting r then s0
        else match s0.resumable rank r lp cluster with
          | none => s0
          | some (gid, g, _, slot, seats) => s0.attempt (s0.resumeGang gid g cluster slot seats))

end Sys2Proof.Machine
end

