-- ==== Sys2Proof/Machine/Boundary.lean ====
section
/-! DEFINITION. The step boundary (R36, R37, R425 to R427). -/

namespace Sys2Proof.Machine

/-- Running gangs of a rank in the order in which they are switched out: in each nest the highest ordinal first (R230). Which nest goes
first, where one job switches out several, R230 does not say: the model takes them in the order of activation (log 110). -/
def State.switchOrder (s : State) (pick : Nat → Gang → Bool) : List Nat :=
  let l := s.gangs.filter fun e => e.2.resident && pick e.1 e.2
  (sortBy (fun (e : Nat × Gang) => e.2.nest * 2 ^ 33 + (2 ^ 32 - e.2.ordinal)) l).map (·.1)

/-- What a STEP takes from the rank's step latch as it retires (R37): class and snapshot, and a migration to another die whose
pre-copy is finished. -/
def Rank.taken (r : Rank) : Due :=
  { cls := r.pend
    snap := r.snapReq
    move := r.migrate.filter fun d => d ≠ r.home && r.precopy.any fun p => p.finished && p.target = d }

/-- The rank once its STEP has retired (R36, order 1; R37): what was taken, and a migration to the rank's own home, are no
longer latched (R268). -/
def Rank.stepped (r : Rank) (u : Nat) : Rank :=
  { r with
    gstep := r.gstep + 1
    pend := none
    snapReq := none
    migrate := if r.taken.move.isSome || r.migrate = some r.home then none else r.migrate
    due := some r.taken
    stepping := some u }

/-- Order 1 (R36), and the end of the forwarding that earlier flips left (R164, R269). -/
def State.advanceStep (s : State) (key : Nat) (u : Nat) : State :=
  let s1 := (s.updRank key fun r => r.stepped u).upd u fun m => { m.retire .c with stepv := m.stepv + 1 }
  { s1 with dies := s1.dies.map fun e => (e.1, { e.2 with forwards := e.2.forwards.map fun f =>
      if f.rank = key then { f with live := false } else f }) }

/-- Orders 3 to 6 (R36, R37): a migration that the STEP has taken switches every gang of the rank out first. -/
def State.boundary (s : State) (key : Nat) : State :=
  if ((s.rank? key).bind (·.due)).any fun d => d.move.isSome then
    let job : SwitchJob := ⟨s.switchOrder fun _ g => g.rank = key, .flip⟩
    (s.updRank key fun v => { v with jobs := v.jobs ++ [job] }).nextJobs key
  else s.lateOrders key

/-- STEP_BOUNDARY (R36, R426): the STEP of a strand retires at its rank's home die, once its waits are over and every
reclaim begun on the rank's pages is complete: order 2 is done before GSTEP advances (log 85). Boundaries of a rank are made one at a time (R427). -/
def execStepBoundary (loc : Loc) (s : State) : Host.Outcome State Fault Refusal :=
  .next (match s.onBank loc.toNat with
    | none => s
    | some (u, m) => match s.rank? m.rank with
      | none => s
      | some r =>
        if m.c.wait = .step && m.canIssue && s.finished u m && r.stepping.isNone && !s.reclaimOpen r then
          (s.advanceStep m.rank u).boundary m.rank
        else s)

end Sys2Proof.Machine
end

