-- ==== Sys2Proof/Machine/Cordic.lean ====
section
/-! DEFINITION. The CORDIC unit (R120 to R123) and VCOR (R460). Fixed-point values are integers in units of 2^-45. -/

namespace Sys2Proof.Machine

/-! ### Constants (R120) -/

/-- atan (2^-i), i = 0 to 38. -/
def cordicAtan : List Nat :=
  [27633741218861, 16313149993182, 8619420437280, 4375352399238, 2196166636240, 1099153923404,
   549711081198, 274872314743, 137438254428, 68719389355, 34359727445, 17179867819,
   8589934421, 4294967275, 2147483645, 1073741824, 536870912, 268435456,
   134217728, 67108864, 33554432, 16777216, 8388608, 4194304,
   2097152, 1048576, 524288, 262144, 131072, 65536,
   32768, 16384, 8192, 4096, 2048, 1024,
   512, 256, 128]

/-- atanh (2^-i), i = 1 to 38; entry 0 is not used. -/
def cordicAtanh : List Nat :=
  [0, 19326991772931, 8986539409546, 4421170177964, 2201893296751, 1099869751579,
   549800559685, 274883499554, 137439652529, 68719564118, 34359749291, 17179870549,
   8589934763, 4294967317, 2147483651, 1073741824, 536870912, 268435456,
   134217728, 67108864, 33554432, 16777216, 8388608, 4194304,
   2097152, 1048576, 524288, 262144, 131072, 65536,
   32768, 16384, 8192, 4096, 2048, 1024,
   512, 256, 128]

/-- 1 / Kc(n), n = 8 to 39. -/
def cordicIkc : List Nat :=
  [21366030561458, 21365867553447, 21365826801405, 21365816613392, 21365814066389, 21365813429638,
   21365813270450, 21365813230653, 21365813220704, 21365813218217, 21365813217595, 21365813217440,
   21365813217401, 21365813217391, 21365813217389, 21365813217388, 21365813217388, 21365813217388,
   21365813217388, 21365813217388, 21365813217388, 21365813217388, 21365813217388, 21365813217388,
   21365813217388, 21365813217388, 21365813217388, 21365813217388, 21365813217388, 21365813217388,
   21365813217388, 21365813217388]

/-- 1 / Kh(n), n = 8 to 39. -/
def cordicIkh : List Nat :=
  [42484593631340, 42484917766776, 42484998800558, 42485019058998, 42485024123608, 42485025389761,
   42485025706299, 42485026022837, 42485026101971, 42485026121755, 42485026126701, 42485026127937,
   42485026128246, 42485026128324, 42485026128343, 42485026128348, 42485026128349, 42485026128349,
   42485026128349, 42485026128350, 42485026128350, 42485026128350, 42485026128350, 42485026128350,
   42485026128350, 42485026128350, 42485026128350, 42485026128350, 42485026128350, 42485026128350,
   42485026128350, 42485026128350]

/-- π and ln 2 in units of 2^-640, truncated: a value that FP32 can hold, reduced by them, is told apart from every
boundary of Q3.45 and of the formats. -/
def piUnits : Nat :=
  14333329926761567455775730701799299831126131522901418329710873694248203755857903894978459978948837038337184470360789102305252273090192709030764248428292776480232102476327552185579501988876367276
def ln2Units : Nat :=
  3162442850577000144542819255265044123884198300717798677536341180773118696995660441338367561063358767323571958122307070903190084685977847936741854327993944726832264493303953239866611699627604094

/-! ### The recurrence (R121) -/

/-- The systems of R121. -/
inductive CordicSys where
  | circular
  | hyperbolic
  | linear
  deriving DecidableEq, Repr

/-- The first `n` entries of the sequence of i. -/
def CordicSys.seq (c : CordicSys) (n : Nat) : List Nat :=
  match c with
  | .hyperbolic => ((natRange 1 n).flatMap fun i => if i = 4 || i = 13 || i = 40 then [i, i] else [i]).take n
  | _ => List.range n

/-- e(sys, i). -/
def CordicSys.angle (c : CordicSys) (i : Nat) : Int :=
  match c with
  | .circular => (cordicAtan.getD i 0 : Nat)
  | .hyperbolic => (cordicAtanh.getD i 0 : Nat)
  | .linear => (2 ^ (45 - i) : Nat)

/-- The three values of the recurrence. -/
structure Xyz where
  x : Int
  y : Int
  z : Int
  deriving DecidableEq, Repr

/-- One iteration. -/
def cordicStep (c : CordicSys) (rotation : Bool) (p : Xyz) (i : Nat) : Xyz :=
  let pos := if rotation then p.z ≥ 0 else !(p.y ≥ 0)
  let sg := fun (v : Int) => if pos then v else -v
  let shy := p.y.fdiv (2 ^ i)
  let shx := p.x.fdiv (2 ^ i)
  { x := match c with
      | .circular => p.x - sg shy
      | .hyperbolic => p.x + sg shy
      | .linear => p.x
    y := p.y + sg shx
    z := p.z - sg (c.angle i) }

/-- `cordic` (R121). -/
def cordic (c : CordicSys) (rotation : Bool) (n : Nat) (p : Xyz) : Xyz := (c.seq n).foldl (cordicStep c rotation) p

/-! ### Reductions (R122) -/

/-- An exact or nearly exact real: num / den × 2^e with a sign. -/
structure Real_ where
  num : Int
  den : Nat
  e : Int
  deriving DecidableEq, Repr

/-- `fx` (R120). -/
def Real_.fx (r : Real_) : Int := (r.num * (2 ^ (r.e + 45).toNat : Nat)).fdiv ((r.den * 2 ^ (-(r.e + 45)).toNat : Nat) : Int)

/-- The signed numerator of a finite value. -/
def Val.real : Val → Real_
  | .fin neg n d e => ⟨if neg then -(n : Int) else n, d, e⟩
  | _ => ⟨0, 1, 0⟩

/-- The integer nearest to num / den, ties to even. -/
def nearestInt (num : Int) (den : Nat) : Int :=
  let q := num.fdiv den
  let r := num - q * den
  if 2 * r > den || (2 * r = den && q % 2 ≠ 0) then q + 1 else q

/-- v reduced by a constant in units of 2^-640: the nearest multiple q, and the rest w. -/
def reduceBy (c : Nat) (v : Val) : Int × Real_ :=
  let r := v.real
  let num := r.num * (2 ^ (r.e + 640).toNat : Nat)
  let den := r.den * 2 ^ (-(r.e + 640)).toNat
  let q := nearestInt num (den * c)
  (q, ⟨num - q * (den * c : Nat), den, -640⟩)

/-- A fixed-point integer as a value, times 2^k. -/
def fixVal (i : Int) (k : Int) : Val := .dyadic (i < 0) i.natAbs (k - 45)

/-- An integer in units of 2^-640 as a value. -/
def longVal (i : Int) : Val := .dyadic (i < 0) i.natAbs (-640)

/-- A multiple of π by a quarter count, with a sign. -/
def piQuarters (neg : Bool) (n : Nat) : Val := .dyadic neg (n * piUnits) (-642)

/-- 2^k times an FP value's exponent range: an exponent beyond every format gives the same rounding as its end. -/
def clampExp (k : Int) : Int := max (-4096) (min 4096 k)

/-- E = (x + y) × 2^k of EXP (R122). -/
def expVal (n : Nat) (v : Val) : Val :=
  let (k, w) := reduceBy ln2Units v
  let p := cordic .hyperbolic true n ⟨(cordicIkh.getD (n - 8) 0 : Nat), 0, w.fx⟩
  fixVal (p.x + p.y) (clampExp k)

/-- A finite non-zero magnitude as m × 2^g with m in [1, 2). -/
def unitForm : Val → Val × Int
  | .fin _ n d e => let g := log2Ratio n d; (.fin false n d (-g), g + e)
  | v => (v, 0)

/-- The quotient of two finite values, the divisor not zero. -/
def Val.quot (a b : Val) : Val :=
  match a, b with
  | .fin x n d e, .fin y m k f => .fin (x != y) (n * k) (d * m) (e - f)
  | v, _ => v

/-! ### Functions (R122, R123) -/

/-- Whether |v| < 2^-12. -/
def Val.tiny (v : Val) : Bool := v.abs.lt false (.dyadic false 1 (-12))

/-- SINCOS: cos and sin. -/
def corSincos (n : Nat) (v : Val) : Val × Val :=
  if v.isNan || v.isInf then (.nan, .nan)
  else if v.tiny then (.dyadic false 1 0, v)
  else
    let (q, w) := reduceBy (piUnits / 2) v
    let p := cordic .circular true n ⟨(cordicIkc.getD (n - 8) 0 : Nat), 0, w.fx⟩
    let (c, s) : Int × Int := match (q % 4).toNat with
      | 0 => (p.x, p.y)
      | 1 => (-p.y, p.x)
      | 2 => (-p.x, -p.y)
      | _ => (p.y, -p.x)
    (fixVal c 0, fixVal s 0)

/-- ATAN2(a, b). -/
def corAtan2 (n : Nat) (a b : Val) : Val :=
  if a.isNan || b.isNan then .nan
  else if a.isZero then (if b.neg then piQuarters a.neg 4 else .zero a.neg)
  else if b.isZero then piQuarters a.neg 2
  else if a.isInf then
    (if b.isInf then piQuarters a.neg (if b.neg then 3 else 1) else piQuarters a.neg 2)
  else if b.isInf then (if b.neg then piQuarters a.neg 4 else .zero a.neg)
  else
    let big := if a.abs.lt false b.abs then b else a
    let k := -(unitForm big).2 - 1
    let sc := fun (v : Val) => match v with
      | .fin neg m d e => Val.fin neg m d (e + k)
      | w => w
    let (x, y) := if b.neg then (sc b.flip, sc a.flip) else (sc b, sc a)
    let p := cordic .circular false n ⟨x.real.fx, y.real.fx, 0⟩
    if !b.neg then fixVal p.z 0
    else longVal (p.z * (2 ^ 595 : Nat) + (if a.neg then -(piUnits : Int) else piUnits))

/-- EXP. -/
def corExp (n : Nat) (v : Val) : Val :=
  if v.isNan then .nan
  else if v.isInf then (if v.neg then .zero false else .inf false)
  else expVal n v

/-- LOG. -/
def corLog (n : Nat) (v : Val) : Val :=
  if v.isNan then .nan
  else if v.isZero then .inf true
  else if v.neg then .nan
  else if v.isInf then .inf false
  else
    let (m, g) := unitForm v
    let one : Val := .dyadic false 1 0
    if m.eq one && g = 0 then .zero false
    else
      let p := cordic .hyperbolic false n ⟨(m.add false one).real.fx, (m.add false one.flip).real.fx, 0⟩
      longVal (2 * p.z * (2 ^ 595 : Nat) + g * ln2Units)

/-- SQRT. -/
def corSqrt (n : Nat) (v : Val) : Val :=
  if v.isNan then .nan
  else if v.isZero then v
  else if v.neg then .nan
  else if v.isInf then .inf false
  else
    let (m1, g1) := unitForm v
    let odd := g1 % 2 ≠ 0
    let m := if odd then (match m1 with
      | .fin x a d e => Val.fin x a d (e - 1)
      | w => w) else m1
    let g := if odd then (g1 + 1) / 2 else g1 / 2
    let q : Val := .dyadic false 1 (-2)
    let p := cordic .hyperbolic false n ⟨(m.add false q).real.fx, (m.add false q.flip).real.fx, 0⟩
    fixVal ((p.x * (cordicIkh.getD (n - 8) 0 : Nat)).fdiv (2 ^ 45)) g

/-- TANH. -/
def corTanh (n : Nat) (v : Val) : Val :=
  if v.isNan then .nan
  else if v.isInf || !v.abs.lt false (.ofInt 10) then .dyadic v.neg 1 0
  else if v.tiny then v
  else
    let e := expVal n (match v.abs with
      | .fin x m d k => .fin x m d (k + 1)
      | w => w)
    let one : Val := .dyadic false 1 0
    let t := (e.add false one.flip).quot (e.add false one)
    if v.neg then t.flip else t

/-- SIGMOID. -/
def corSigmoid (n : Nat) (v : Val) : Val :=
  if v.isNan then .nan
  else if v.isInf then (if v.neg then .zero false else .dyadic false 1 0)
  else
    let one : Val := .dyadic false 1 0
    one.quot ((expVal n v.flip).add false one)

/-- DIV(a, b). -/
def corDiv (n : Nat) (a b : Val) : Val :=
  let neg := a.neg != b.neg
  if a.isNan || b.isNan then .nan
  else if (a.isZero && b.isZero) || (a.isInf && b.isInf) then .nan
  else if b.isZero || a.isInf then .inf neg
  else if a.isZero || b.isInf then .zero neg
  else
    let (ma1, ga1) := unitForm a
    let (mb, gb) := unitForm b
    let ma := match ma1 with
      | .fin x p d e => Val.fin x p d (e - 1)
      | w => w
    let p := cordic .linear false n ⟨mb.real.fx, ma.real.fx, 0⟩
    let q := fixVal p.z (ga1 + 1 - gb)
    if neg then q.flip else q

/-! ### VCOR (R460) -/

/-- The values of a function: the first destination's and, for SINCOS, the second's. -/
def corValue (fn : BitVec 3) (n : Nat) (a b : Val) : Val × Val :=
  match fn.toNat with
  | 0 => corSincos n a
  | 1 => (corAtan2 n a b, .nan)
  | 2 => (corExp n a, .nan)
  | 3 => (corLog n a, .nan)
  | 4 => (corSqrt n a, .nan)
  | 5 => (corTanh n a, .nan)
  | 6 => (corSigmoid n a, .nan)
  | _ => (corDiv n a b, .nan)

/-- VCOR: a pair of destinations for SINCOS, a pair of sources for ATAN2 and DIV. -/
def execVcor (d a : Field) (i : BitVec 5) (f : BitVec 3) (s : State) : Host.Outcome State Fault Refusal :=
  onVec s fun u m => do
    let td ← m.vTile d fltFmts
    let te ← if f = 0 then m.vLike td (d + 1) else .ok td
    let ta ← m.vLike td a
    let tb ← if f = 1 || f = 7 then m.vLike td (a + 1) else .ok ta
    let w := cfgWidth td.fmt
    let n := i.toNat + 8
    let (ia, ib) := (s.image ta, s.image tb)
    let at_ := fun (x : BitVec 32768) (k : Nat) => decElem td.fmt (elemBits x w k)
    let el := fun (v : Val) => Elem.rnd (fmtOf td.fmt) .rne m.ieee 0 v
    let s1 := s.elems u m td .rne fun k _ => el (corValue f n (at_ ia k) (at_ ib k)).1
    let s2 := if f = 0 then s1.elems u m te .rne fun k _ => el (corValue f n (at_ ia k) (at_ ib k)).2 else s1
    .ok (s2.done u .x)

end Sys2Proof.Machine
end

