-- ==== Sys2Proof/Machine/Fabric.lean ====
section
/-! DEFINITION. The fabric between packages: forwarding and dropping of flits (R255), the time-out of a request (R257), route
entries, link retries, and the counts of the management plane (R253, R257, R271). -/

namespace Sys2Proof.Machine

/-! ### Counts -/

/-- A counter of a die increments; when it reaches the threshold that is set for it, the host is warned by a notification and
over the sideband (R31, R271, R289). -/
def State.countError (s : State) (d : DieKey) (j : Nat) : State :=
  let v := s.die d
  let n := vget v.counters 0 j + 1
  let limit := (vget v.limits 0 j).toNat
  let s1 := s.setDie d { v with counters := vset v.counters j n }
  if limit ≠ 0 && n.toNat = limit then
    let note := BitVec.ofNat 128 (0x04 + (peerOf d).toNat * 2 ^ 8 + j * 2 ^ 20 + n.toNat * 2 ^ 64)
    (s1.notify (pkgOf d) note).updPkg (pkgOf d) fun k => { k with i3cNotes := k.i3cNotes ++ [note] }
  else s1

/-- CORRECTED_ERROR (R271): an error or excursion of a die is counted. -/
def execCorrectedError (die : DieKey) (counter : BitVec 3) (s : State) : Host.Outcome State Fault Refusal :=
  .next (if s.alive (pkgOf die) then s.countError die counter.toNat else s)

/-- LINK_RETRY (R253): a retry is counted; it changes timing only. -/
def execLinkRetry (die : DieKey) (port : BitVec 2) (s : State) : Host.Outcome State Fault Refusal :=
  .next (if s.alive (pkgOf die) then s.countError die (3 + port.toNat) else s)

/-! ### Routes -/

/-- ROUTE_ENTRY_LOAD (R254, R257): the management plane replaces one entry, whose reserved bits are zero. Requests sent to the
destination from now on wait for the earlier ones, and those that wait since an earlier replacement still do. -/
def execRouteEntryLoad (pkg : Pkg) (dest : Pkg) (entry : Word) (s : State) : Host.Outcome State Fault Refusal :=
  .next (s.updPkg pkg fun k => { k with
    routes := tabSet k.routes 0 dest.toNat (entry &&& 0x80000000007FFFFF)
    routeHold := tabPut k.routeHold dest.toNat (s.ids :: tabAt k.routeHold [] dest.toNat) })

/-- A request that leaves its package is held (R257): the route entry of its destination has changed, and a request that its die
sent there before is neither answered nor refused (log 48). -/
def State.routeHeld (s : State) (q : Msg) : Bool :=
  q.hops = 0 && q.at_ = pkgOf q.src && q.id = q.req && q.body.asks && s.routeBusy q.src (pkgOf q.dst) q.id

/-! ### A message that does not arrive -/

/-- The requester's strand hears of a failed request at its own die. -/
def State.failStrand (s : State) (die : DieKey) (u : Nat) (t : Stream) (va : Word) (req : Nat) : State :=
  s.send die die (64 * s.ids) (.refuse u t cPEER_UNREACHABLE va req)

/-- A request fails with PEER_UNREACHABLE (R255, R257): a write of R242 leaves an error entry and its word goes on, any other access,
and a write that has come back to its own die by a PEER leaf, is a precise fault (R174), a collective's hop stops its
sender's command (R264), an offer or a lease request ends with status 5 (R189), and a message of the control plane that asks
for no answer is lost. The outcome of a lease, which has changed both dies' entries, reaches its asker late, as it is (log 83). -/
def State.failMsg (s : State) (q : Msg) : State :=
  let s1 := s.dropMsg q.id
  let post := fun (at_ : DieKey) (u : Nat) (va : Word) (peer : DieKey) =>
    s1.send at_ at_ (64 * s1.ids) (.post u ⟨wordOf va, peerOf peer, cPEER_UNREACHABLE⟩)
  let request := fun (a : Access) =>
    if a.op.posts && (!a.waits || a.phys.isNone) then
      let s2 := post q.src a.uid a.va q.dst
      if a.waits then s2.send q.src q.src (64 * s2.ids) (.goOn a.uid a.stream a.va q.id) else s2
    else s1.failStrand q.src a.uid a.stream a.va q.id
  match q.body with
  | .access a => request a
  | .polder a _ => request a
  | .cellReq a _ => s1.failStrand q.src a.uid .c a.va q.id
  | .cellRel a _ => s1.failStrand q.src a.uid .c a.va q.id
  | .reply u t _ _ va req => s1.failStrand q.dst u t va req
  | .refuse u t _ va req => s1.failStrand q.dst u t va req
  | .goOn u t va req => s1.send q.dst q.dst (64 * s1.ids) (.goOn u t va req)
  | .ack u va => post q.dst u va q.src
  | .post u e => s1.send q.dst q.dst (64 * s1.ids) (.post u { e with cause := cPEER_UNREACHABLE })
  | .cellGrant u _ _ => match (s1.strand u).bind (·.acq) with
    | some (va, _) => s1.failStrand q.dst u .c va q.id
    | none => s1
  | .lend _ _ _ _ who => s1.lendAnswer q.src 5 0 0 who
  | .offer i _ who => s1.offerFails q.src i 5 who
  | .answer i accepted who => s1.answerLost q.dst q.src i accepted who
  | .lendDone status le be who => s1.send q.dst q.dst (64 * s1.ids) (.lendDone status le be who)
  | .coll m => s.hopFails q m
  | .resend _ => s
  | .reclaimEvent _ _ => s1
  | .returned _ => s1
  | .fence _ => s1
  | .abort _ _ _ => s1
  | .endpoint _ _ _ => s1

/-- FLIT_FORWARD (R255): the message that the row acts on takes its next link, is delivered, or is dropped and refused. On a
link that leads nowhere it stays until it times out, and after a change of route until the earlier requests are over (R257). -/
def execFlitForward (s : State) : Host.Outcome State Fault Refusal :=
  .next (match s.msg? s.subject with
    | none => s
    | some q =>
      if q.arrived || q.hops = lostHops || !s.alive q.at_ || s.routeHeld q then s
      else match s.hop q.at_ q.src q.dst q.route q.hops with
        | .deliver => s.setMsg { q with arrived := true }
        | .refuse => if q.body.asks then s.failMsg q else s
        | .send none => s
        | .send (some p) => s.setMsg { q with at_ := p, hops := q.hops + 1 })

/-- REQUEST_TIMEOUT (R257, R264): a request, or the answer to one, that is 2^20 cycles old fails. A collective's message that
has reached its endpoint waits there without limit (R264). -/
def execRequestTimeout (s : State) : Host.Outcome State Fault Refusal :=
  .next (match s.msg? s.subject with
    | none => s
    | some q =>
      let ends := match q.body with
        | .coll _ => !q.arrived
        | .abort _ _ _ => !q.arrived
        | .resend _ => false
        | _ => true
      if q.age ≥ Config.timeoutCycles && ends then s.failMsg q else s)

end Sys2Proof.Machine
end

