-- ==== Sys2Proof/Machine/Int.lean ====
section
/-! DEFINITION. The integer words of the C stream (R302, R309): arithmetic, logic, shifts, comparisons, constants, RNG. -/

namespace Sys2Proof.Machine

/-- An integer word with two register operands: `d := f (g a) (g b)`. -/
def intRR (s : State) (d a b : Field) (f : Word → Word → Word) : Host.Outcome State Fault Refusal :=
  onReg s .c fun m => m.setReg d (f (m.reg a) (m.reg b))

/-- An integer word with a register and a constant: `d := f (g a)`. -/
def intR (s : State) (d a : Field) (f : Word → Word) : Host.Outcome State Fault Refusal :=
  onReg s .c fun m => m.setReg d (f (m.reg a))

/-- The 12-bit immediate, sign-extended (R300). -/
def imm12 (i : BitVec 12) : Word := i.signExtend 64

/-- 1 when the condition holds and 0 otherwise. -/
def flag (b : Bool) : Word := if b then 1 else 0

/-- The quotient of DIV (R371). -/
def divS (a b : Word) : Word :=
  if b = 0 then -1 else if a = 0x8000000000000000 && b = -1 then a else a.sdiv b

/-- The quotient of DIVU (R371). -/
def divU (a b : Word) : Word := if b = 0 then -1 else a / b

/-- The remainder of REM (R412). -/
def remS (a b : Word) : Word :=
  if b = 0 then a else if a = 0x8000000000000000 && b = -1 then 0 else a - divS a b * b

/-- The remainder of REMU (R412). -/
def remU (a b : Word) : Word := if b = 0 then a else a % b

/-- Bits [127:64] of the signed product (R402). -/
def mulHigh (a b : Word) : Word := ((a.signExtend 128) * (b.signExtend 128)).extractLsb' 64 64

/-- Bits [127:64] of the unsigned product (R402). -/
def mulHighU (a b : Word) : Word := ((a.setWidth 128) * (b.setWidth 128)).extractLsb' 64 64

/-- The zero bits above the highest set bit (R363). -/
def clz64 (a : Word) : Word := if a = 0 then 64 else wd (63 - a.toNat.log2)

/-- The number of set bits (R408). -/
def popc64 (a : Word) : Word := wd ((List.range 64).foldl (fun n i => n + b2n (a.getLsbD i)) 0)

/-- R333. -/
def execAdd (d a b : Field) (s : State) : Host.Outcome State Fault Refusal := intRR s d a b fun x y => x + y

/-- R431. -/
def execSub (d a b : Field) (s : State) : Host.Outcome State Fault Refusal := intRR s d a b fun x y => x - y

/-- R402. -/
def execMul (d a b : Field) (s : State) : Host.Outcome State Fault Refusal := intRR s d a b fun x y => x * y

/-- R402. -/
def execMulh (d a b : Field) (s : State) : Host.Outcome State Fault Refusal := intRR s d a b fun x y => mulHigh x y

/-- R402. -/
def execMulhu (d a b : Field) (s : State) : Host.Outcome State Fault Refusal := intRR s d a b fun x y => mulHighU x y

/-- R371. -/
def execDiv (d a b : Field) (s : State) : Host.Outcome State Fault Refusal := intRR s d a b fun x y => divS x y

/-- R371. -/
def execDivu (d a b : Field) (s : State) : Host.Outcome State Fault Refusal := intRR s d a b fun x y => divU x y

/-- R412. -/
def execRem (d a b : Field) (s : State) : Host.Outcome State Fault Refusal := intRR s d a b fun x y => remS x y

/-- R412. -/
def execRemu (d a b : Field) (s : State) : Host.Outcome State Fault Refusal := intRR s d a b fun x y => remU x y

/-- R340. -/
def execAnd (d a b : Field) (s : State) : Host.Outcome State Fault Refusal := intRR s d a b fun x y => x &&& y

/-- R404. -/
def execOr (d a b : Field) (s : State) : Host.Outcome State Fault Refusal := intRR s d a b fun x y => x ||| y

/-- R477. -/
def execXor (d a b : Field) (s : State) : Host.Outcome State Fault Refusal := intRR s d a b fun x y => x ^^^ y

/-- R421. -/
def execShl (d a b : Field) (s : State) : Host.Outcome State Fault Refusal := intRR s d a b fun x y => x <<< (y.toNat % 64)

/-- R421. -/
def execShr (d a b : Field) (s : State) : Host.Outcome State Fault Refusal := intRR s d a b fun x y => x >>> (y.toNat % 64)

/-- R421. -/
def execSra (d a b : Field) (s : State) : Host.Outcome State Fault Refusal := intRR s d a b fun x y => x.sshiftRight (y.toNat % 64)

/-- R424. -/
def execSlt (d a b : Field) (s : State) : Host.Outcome State Fault Refusal := intRR s d a b fun x y => flag (x.slt y)

/-- R424. -/
def execSltu (d a b : Field) (s : State) : Host.Outcome State Fault Refusal := intRR s d a b fun x y => flag (x.ult y)

/-- R394. -/
def execMin (d a b : Field) (s : State) : Host.Outcome State Fault Refusal := intRR s d a b fun x y => if x.slt y then x else y

/-- R394. -/
def execMax (d a b : Field) (s : State) : Host.Outcome State Fault Refusal := intRR s d a b fun x y => if x.slt y then y else x

/-- R394. -/
def execMinu (d a b : Field) (s : State) : Host.Outcome State Fault Refusal := intRR s d a b fun x y => if x.ult y then x else y

/-- R394. -/
def execMaxu (d a b : Field) (s : State) : Host.Outcome State Fault Refusal := intRR s d a b fun x y => if x.ult y then y else x

/-- R420: `g(d)` is the condition. -/
def execSel (d a b : Field) (s : State) : Host.Outcome State Fault Refusal :=
  onReg s .c fun m => m.setReg d (if m.reg d ≠ 0 then m.reg a else m.reg b)

/-- R363. -/
def execClz (d a : Field) (s : State) : Host.Outcome State Fault Refusal := intR s d a clz64

/-- R408. -/
def execPopc (d a : Field) (s : State) : Host.Outcome State Fault Refusal := intR s d a popc64

/-- R421: the count is the field. -/
def execShli (d a b : Field) (s : State) : Host.Outcome State Fault Refusal := intR s d a fun x => x <<< b.toNat

/-- R421. -/
def execShri (d a b : Field) (s : State) : Host.Outcome State Fault Refusal := intR s d a fun x => x >>> b.toNat

/-- R421. -/
def execSrai (d a b : Field) (s : State) : Host.Outcome State Fault Refusal := intR s d a fun x => x.sshiftRight b.toNat

/-- R333. -/
def execAddi (d a : Field) (i : BitVec 12) (s : State) : Host.Outcome State Fault Refusal := intR s d a fun x => x + imm12 i

/-- R340. -/
def execAndi (d a : Field) (i : BitVec 12) (s : State) : Host.Outcome State Fault Refusal := intR s d a fun x => x &&& imm12 i

/-- R404. -/
def execOri (d a : Field) (i : BitVec 12) (s : State) : Host.Outcome State Fault Refusal := intR s d a fun x => x ||| imm12 i

/-- R477. -/
def execXori (d a : Field) (i : BitVec 12) (s : State) : Host.Outcome State Fault Refusal := intR s d a fun x => x ^^^ imm12 i

/-- R424. -/
def execSlti (d a : Field) (i : BitVec 12) (s : State) : Host.Outcome State Fault Refusal := intR s d a fun x => flag (x.slt (imm12 i))

/-- R351: `l` holds the length less one. -/
def execBfx (d a l p : Field) (s : State) : Host.Outcome State Fault Refusal :=
  intR s d a fun x => (x >>> p.toNat) &&& maskBits 0 (l.toNat + 1)

/-- R350: `d` is read before it is written. -/
def execBfi (d a l p : Field) (s : State) : Host.Outcome State Fault Refusal :=
  onReg s .c fun m =>
    let k := maskBits p.toNat (l.toNat + 1)
    m.setReg d ((m.reg d &&& ~~~k) ||| ((m.reg a <<< p.toNat) &&& k))

/-- R302. -/
def execLi (d : Field) (i : BitVec 18) (s : State) : Host.Outcome State Fault Refusal :=
  onReg s .c fun m => m.setReg d (i.signExtend 64)

/-- The register of the LI that is the previous word of the walk (R302). -/
def Strand.lihTarget (m : Strand) : Option Field :=
  if m.c.pos = 0 then none else
    match m.wordAt (m.c.pos - 1) with
    | none => none
    | some w => match decode w.bits with
      | some (.li d _) => some d
      | _ => none

/-- R302: ILLEGAL when the previous word of the walk is not an LI. -/
def execLih (i : BitVec 24) (s : State) : Host.Outcome State Fault Refusal :=
  onWord s .c false false fun u m => match m.lihTarget with
    | none => s.raise u .c cILLEGAL 0 0
    | some d => s.setStrand u ((m.setReg d ((m.reg d &&& 0xFFFFFF) + (i.signExtend 64 <<< 24))).retire .c)

/-- R413, plain form: the seed is the high half of `g(a)`. -/
def execRng (d a b : Field) (s : State) : Host.Outcome State Fault Refusal :=
  intRR s d a b fun x y => (cbg (x.extractLsb' 32 32) (x.extractLsb' 0 32) (y.extractLsb' 0 32)).setWidth 64

/-- R413, `.RS`: the seed is RSEED[31:0]. -/
def execRngRs (d a b : Field) (s : State) : Host.Outcome State Fault Refusal :=
  onReg s .c fun m =>
    let seed : BitVec 32 := match s.rank? m.rank with
      | none => 0
      | some r => r.rseed.extractLsb' 0 32
    m.setReg d ((cbg seed ((m.reg a).extractLsb' 0 32) ((m.reg b).extractLsb' 0 32)).setWidth 64)

end Sys2Proof.Machine
end

