-- ==== Sys2Proof/Machine/Lanes.lean ====
section
/-! DEFINITION. The lane words of the vector unit and the mask stack (R396, R449, R457, R458, R466, R468 to R473). -/

namespace Sys2Proof.Machine

/-! ### Bits and moves -/

/-- A lane word on two sources with the top mask. -/
def bitWord (s : State) (d a b : Field) (f : BitVec 32 → BitVec 32 → BitVec 32) : Host.Outcome State Fault Refusal :=
  onLanes2 s d a b Strand.mask fun _ x y _ => f x y

/-- VAND (R457). -/
def execVand (d a b : Field) (s : State) : Host.Outcome State Fault Refusal := bitWord s d a b (· &&& ·)

/-- VOR (R457). -/
def execVor (d a b : Field) (s : State) : Host.Outcome State Fault Refusal := bitWord s d a b (· ||| ·)

/-- VXOR (R457). -/
def execVxor (d a b : Field) (s : State) : Host.Outcome State Fault Refusal := bitWord s d a b (· ^^^ ·)

/-- VNOT (R457). -/
def execVnot (d a : Field) (s : State) : Host.Outcome State Fault Refusal := bitWord s d a a fun x _ => ~~~x

/-- VSEL (R450, R473): every lane is written, and the mask chooses. -/
def execVsel (d a b : Field) (s : State) : Host.Outcome State Fault Refusal :=
  onLanes2 s d a b (fun _ => BitVec.allOnes 1024) fun m x y l => if m.mask.getLsbD l then x else y

/-- VMOV (R468). -/
def execVmov (d a : Field) (s : State) : Host.Outcome State Fault Refusal :=
  onLanes s d a fun _ ia l => (unit32 ia l).toNat

/-- A lane word without a source tile. -/
def onLane0 (s : State) (d : Field) (f : Strand → Nat → Nat) : Host.Outcome State Fault Refusal :=
  onVec s fun u m => do
    let td ← m.vName d
    .ok ((s.setImage td (laneLoop (s.image td) m.mask (f m))).done u .x)

/-- VMOV.G (R468). -/
def execVmovG (d a : Field) (s : State) : Host.Outcome State Fault Refusal :=
  onLane0 s d fun m _ => (m.reg a).toNat % 2 ^ 32

/-- VIOTA (R466). -/
def execViota (d a : Field) (s : State) : Host.Outcome State Fault Refusal :=
  onLane0 s d fun m l => ((m.reg a).toNat + l) % 2 ^ 32

/-- Lane (row, column) (R449). -/
def laneAt (r c : Nat) : Nat := 64 * r + c

/-- VBCR (R458): lane (r, col) along each row. -/
def execVbcr (d a c : Field) (s : State) : Host.Outcome State Fault Refusal :=
  onLanes s d a fun _ ia l => (unit32 ia (laneAt (l / 64) c.toNat)).toNat

/-- VBCC (R458): lane (row, c) along each column. -/
def execVbcc (d a : Field) (r : BitVec 4) (s : State) : Host.Outcome State Fault Refusal :=
  onLanes s d a fun _ ia l => (unit32 ia (laneAt r.toNat (l % 64))).toNat

/-- VROTR (R471). -/
def execVrotr (d a n : Field) (s : State) : Host.Outcome State Fault Refusal :=
  onLanes s d a fun _ ia l => (unit32 ia (laneAt (l / 64) ((l % 64 + 64 - n.toNat) % 64))).toNat

/-- VROTC (R471). -/
def execVrotc (d a : Field) (n : BitVec 4) (s : State) : Host.Outcome State Fault Refusal :=
  onLanes s d a fun _ ia l => (unit32 ia (laneAt ((l / 64 + 16 - n.toNat) % 16) (l % 64))).toNat

/-! ### Counter-based draws -/

/-- The value of a lane of VRNG (R470). -/
def vrngLane (seed layer t : BitVec 32) (form : BitVec 2) (n : BitVec 32) : Nat :=
  let half := fun (h : BitVec 32) => if cbg seed layer (2 * n + h) < t then 0xFFFF else 0
  match form.toNat with
  | 0 => (cbg seed layer n).toNat
  | 1 => if cbg seed layer n < t then 0xFFFFFFFF else 0
  | _ => half 0 + half 1 * 65536

/-- VRNG (R470). -/
def execVrng (d a b : Field) (sd : Bool) (f : BitVec 2) (s : State) : Host.Outcome State Fault Refusal :=
  onLanes s d a fun m ia l =>
    let g := m.reg b
    let rseed : Word := ((s.rank? m.rank).map (·.rseed)).getD 0
    let seed : BitVec 32 := if sd then BitVec.setWidth 32 rseed else g.extractLsb' 32 32
    vrngLane seed (BitVec.setWidth 32 g) (BitVec.setWidth 32 (m.reg (b + 1))) f (unit32 ia l)

/-! ### Reductions and scans -/

/-- What a combination yields: bits, counts, IOVF. -/
structure Comb where
  bits : Nat
  ovf : Nat
  iovf : Bool
  deriving DecidableEq, Repr

/-- `comb` of R469, on lanes of FP32 (code 0) or INT32. -/
def combLanes (code : Nat) (op : BitVec 2) (mode : Mode) (ieee : Bool) (x y : Nat) : Comb :=
  if op = 0 then
    if code = 0 then
      let r := fFP32.rnd mode ieee 0 (addMode mode (dec32 x) (dec32 y))
      ⟨r.bits, b2n r.ovf, r.iovf⟩
    else ⟨(x + y) % 2 ^ 32, 0, false⟩
  else ⟨pickElem code false false (op = 1) x y, 0, false⟩

/-- One level of the pairwise tree (R469): neighbours combined, disabled lanes left out. -/
def redLevel (f : Nat → Nat → Comb) : List (Option Nat) → List (Option Nat) × Nat × Bool
  | x :: y :: r =>
    let (l, n, i) := redLevel f r
    match x, y with
    | some a, some b => (some (f a b).bits :: l, n + (f a b).ovf, i || (f a b).iovf)
    | some a, none => (some a :: l, n, i)
    | none, z => (z :: l, n, i)
  | l => (l, 0, false)

/-- The tree over a group of 2^k lanes. -/
def redTree (f : Nat → Nat → Comb) : Nat → List (Option Nat) → Option Nat × Nat × Bool
  | 0, l => (l.headD none, 0, false)
  | k + 1, l =>
    let (l1, n, i) := redLevel f l
    let (v, n2, i2) := redTree f k l1
    (v, n + n2, i || i2)

/-- The lanes of group `g`: a vector row of 64, or a vector column of 16 (R469). -/
def groupLanes (col : Bool) (g : Nat) : List Nat :=
  if col then (List.range 16).map fun r => laneAt r g else (List.range 64).map fun c => laneAt g c

/-- Results by lane, with counts. -/
structure LaneRes where
  vals : Tab Nat
  ovf : Nat
  iovf : Bool
  deriving DecidableEq, Repr

/-- Reduction of one group: each enabled lane receives the result. -/
def redGroup (f : Nat → Nat → Comb) (col : Bool) (mask : BitVec 1024) (img : BitVec 32768) (g : Nat) : LaneRes :=
  let l := groupLanes col g
  let (v, n, i) := redTree f (if col then 4 else 6) (l.map fun k =>
    if mask.getLsbD k then some (unit32 img k).toNat else none)
  ⟨(l.filter mask.getLsbD).map fun k => (k, v.getD 0), n, i⟩

/-- The identity of a scan (R472). -/
def scanIdentity (code : Nat) (op : BitVec 2) : Nat :=
  if op = 0 then 0
  else if code = 0 then (if op = 1 then 0xFF800000 else 0x7F800000)
  else (if op = 1 then 0x80000000 else 0x7FFFFFFF)

/-- Serial scan of one group over its enabled lanes (R472). -/
def scanGroup (f : Nat → Nat → Comb) (ident : Nat) (ex : Bool) (mask : BitVec 1024) (img : BitVec 32768) :
    List Nat → Option Nat → LaneRes
  | [], _ => ⟨[], 0, false⟩
  | k :: r, acc =>
    if mask.getLsbD k then
      let x := (unit32 img k).toNat
      let c : Comb := match acc with
        | none => ⟨x, 0, false⟩
        | some a => f a x
      let rest := scanGroup f ident ex mask img r (some c.bits)
      ⟨(k, if ex then acc.getD ident else c.bits) :: rest.vals, rest.ovf + c.ovf, rest.iovf || c.iovf⟩
    else scanGroup f ident ex mask img r acc

/-- The rounding mode of a reduction: dynamic RSTO stands for RNE (R469). -/
def Strand.redMode (m : Strand) (r : BitVec 3) : Mode :=
  match m.mode r with
  | .rsto => .rne
  | k => k

/-- A reduction or a scan: `g` gives a group's results from `comb`, the format code, the mask and the image. -/
def onGroups (s : State) (d a : Field) (op : BitVec 2) (r : BitVec 3) (groups : Nat)
    (g : (Nat → Nat → Comb) → Nat → BitVec 1024 → BitVec 32768 → Nat → LaneRes) : Host.Outcome State Fault Refusal :=
  onVec s fun u m => do
    let td ← m.vName d
    let ta ← m.vTile a [0x0, 0xC]
    let ia := s.image ta
    let l := (List.range groups).map (g (combLanes ta.fmt op (m.redMode r) m.ieee) ta.fmt m.mask ia)
    let vals := l.flatMap LaneRes.vals
    let img := vals.foldl (fun v (e : Nat × Nat) => putBits v (32 * e.1) 32 e.2) (s.image td)
    .ok (((s.setImage td img).upd u fun k =>
      k.status td.slot (l.foldl (fun n x => n + x.ovf) 0) false (l.any LaneRes.iovf)).done u .x)

/-- VREDR (R469). -/
def execVredr (d a : Field) (o : BitVec 2) (r : BitVec 3) (s : State) : Host.Outcome State Fault Refusal :=
  onGroups s d a o r 16 fun f _ mask img g => redGroup f false mask img g

/-- VREDC (R469). -/
def execVredc (d a : Field) (o : BitVec 2) (r : BitVec 3) (s : State) : Host.Outcome State Fault Refusal :=
  onGroups s d a o r 64 fun f _ mask img g => redGroup f true mask img g

/-- VSCANR (R472). -/
def execVscanr (d a : Field) (x : Bool) (o : BitVec 2) (r : BitVec 3) (s : State) : Host.Outcome State Fault Refusal :=
  onGroups s d a o r 16 fun f code mask img g =>
    scanGroup f (scanIdentity code o) x mask img (groupLanes false g) none

/-- VSCANC (R472). -/
def execVscanc (d a : Field) (x : Bool) (o : BitVec 2) (r : BitVec 3) (s : State) : Host.Outcome State Fault Refusal :=
  onGroups s d a o r 64 fun f code mask img g =>
    scanGroup f (scanIdentity code o) x mask img (groupLanes true g) none

/-! ### The mask stack (R396) -/

/-- The lanes of an image that are not all zero. -/
def laneMask (img : BitVec 32768) : BitVec 1024 :=
  BitVec.ofNat 1024 (packNat 1 ((List.range 1024).map fun l => b2n (unit32 img l ≠ 0)))

/-- MPUSH and MPUSH.NEW. -/
def mpush (s : State) (a : Field) (new : Bool) : Host.Outcome State Fault Refusal :=
  onVec s fun u m => do
    if m.masks.length ≥ 8 then .ok (s.raise u .x cILLEGAL 0 0)
    else
      let ta ← m.vName a
      let k := laneMask (s.image ta)
      .ok (s.setStrand u ({ m with masks := (if new then k else k &&& m.mask) :: m.masks }.retire .x))

/-- MPUSH (R396). -/
def execMpush (a : Field) (s : State) : Host.Outcome State Fault Refusal := mpush s a false

/-- MPUSH.NEW (R396). -/
def execMpushNew (a : Field) (s : State) : Host.Outcome State Fault Refusal := mpush s a true

/-- MINV (R396). -/
def execMinv (s : State) : Host.Outcome State Fault Refusal :=
  onReg s .x fun m => match m.masks with
    | top :: below :: r => { m with masks := (below &&& ~~~top) :: below :: r }
    | top :: [] => { m with masks := [~~~top] }
    | [] => m

/-- MPOP (R396). -/
def execMpop (s : State) : Host.Outcome State Fault Refusal :=
  onWord s .x false false fun u m =>
    match m.masks with
    | _ :: b :: r => s.setStrand u ({ m with masks := b :: r }.retire .x)
    | _ => s.raise u .x cILLEGAL 0 0

end Sys2Proof.Machine
end

