-- ==== Sys2Proof/Machine/Platform.lean ====
section
/-! DEFINITION. The start-control register and the start sequence (R278, R279, R290 to R293), the Sluice command window
(R280 to R282), and the management plane's rows (R287, R294). -/

namespace Sys2Proof.Machine

/-! ### Start log (R292) -/

def logEntry (step attempt result : Nat) (warm : Bool) (cycles : Nat) : Word :=
  wd (step + attempt * 16 + result * 256 + b2n warm * 65536 + cycles * 2 ^ 24)

/-- An entry of a step completed or skipped. -/
def logDone (e : Word) : Bool := fld e 15 8 = 0 || fld e 15 8 = 0xFF

/-- The first step of the nine that is neither completed nor skipped. -/
def firstStep (log : List Word) : Nat :=
  ((natRange 1 9).find? fun k => log.all fun e => !(logDone e && fld e 3 0 = k)).getD 9

/-- The kind of the start in progress skips a step (R290). -/
def skips (kind : BitVec 2) (step : Nat) : Bool := if kind = 2 then step = 2 || step = 6 else step = 9

/-! ### GO and STOP -/

/-- A GO is acted on (R278): the package is OFF or FAILED, and the start is cold, or warm with WARMOK. -/
def Package.goes (k : Package) (kind : BitVec 2) : Bool :=
  (k.state = .off || k.state = .failed) && (kind = 1 || (kind = 2 && k.warmok))

/-- GO (R278, R292): a continued start goes on from the first step not done, any other clears the log. -/
def Package.go (k : Package) (kind : BitVec 2) : Package :=
  if !k.goes kind then k else
    let continued := k.resumable && k.lastKind = kind
    let log := if continued then k.log.filter logDone else []
    { k with state := .starting, step := firstStep log, attempt := 1, log := log, lastKind := kind, resumable := false }

/-- The leases of a die are FREE: what a reclaim was about to copy is given back. -/
def Die.freeLeases (v : Die) : Die :=
  let v1 := v.held.foldl (fun (d : Die) h => match h.by_ with
    | .demotion _ f => { d.giveFrames true f (sizeUnits h.size.toNat) with held := d.held.erase h }
    | _ => d) v
  { v1 with polders := [] }

/-- A cold start leaves every lease FREE and no rank image resident (R290), whatever a start that has failed has left. -/
def State.coldClear (s : State) (p : Pkg) : State :=
  (diesOf p).foldl (fun (acc : State) d => acc.updDie d Die.freeLeases) ((s.cutMoves p true).dropRanks p)

/-- GO at a package. -/
def State.start (s : State) (p : Pkg) (kind : BitVec 2) : State :=
  let s1 := if kind = 1 && (s.pkg p).goes kind then s.coldClear p else s
  s1.updPkg p fun k => k.go kind

/-- STOP (R279, R293). A warm stop switches out every gang of the package's ranks first, and none is dispatched or resumed any
more; the package is off when the last is out. -/
def State.stop (s : State) (p : Pkg) (kind : BitVec 2) : State :=
  let k := s.pkg p
  match k.state with
  | .off => s
  | .starting => (s.coldOff p).updPkg p fun v => { v with resumable := true }
  | .failed => (s.coldOff p).updPkg p fun v => { v with resumable := k.resumable }
  | .started =>
    if kind ≠ 2 then (s.coldOff p).updPkg p fun v => { v with resumable := false }
    else
      let keys := (s.ranksIn p).map (·.1)
      let s1 := keys.foldl (fun (acc : State) key =>
        let job : SwitchJob := ⟨acc.switchOrder fun _ g => g.rank = key, .warm p.toNat⟩
        acc.updRank key fun r => { r with jobs := r.jobs ++ [job] }) (s.updPkg p fun v => { v with stopping := true })
      if keys.isEmpty then s1.warmOff p else keys.foldl (fun (acc : State) key => acc.nextJobs key) s1

/-- A write of the start-control register (R278): KIND, the write-one-to-clear TRIP, and GO or STOP. -/
def State.writeStart (s : State) (p : Pkg) (v : Word) : State :=
  let kind := v.extractLsb' 0 2
  let s1 := s.updPkg p fun k => { k with kind := kind, trip := k.trip && !bit v 11 }
  if bit v 3 then s1.stop p kind
  else if bit v 2 then s1.start p kind
  else s1

/-- START_COLD (R278). -/
def execStartCold (pkg : Pkg) (s : State) : Host.Outcome State Fault Refusal := .next (s.writeStart pkg 5)

/-- START_WARM (R278). -/
def execStartWarm (pkg : Pkg) (s : State) : Host.Outcome State Fault Refusal := .next (s.writeStart pkg 6)

/-- STOP_COLD (R279). -/
def execStopCold (pkg : Pkg) (kind : BitVec 2) (s : State) : Host.Outcome State Fault Refusal :=
  .next (s.writeStart pkg (wd (8 + kind.toNat)))

/-- STOP_WARM (R279, R293). -/
def execStopWarm (pkg : Pkg) (s : State) : Host.Outcome State Fault Refusal := .next (s.writeStart pkg 10)

/-- THERMAL_TRIP (R294): the device stops at once, as a cold STOP does, and sets TRIP. -/
def execThermalTrip (pkg : Pkg) (s : State) : Host.Outcome State Fault Refusal :=
  .next (if s.alive pkg then (s.stop pkg 0).updPkg pkg fun k => { k with trip := true } else s)

/-! ### Start steps -/

/-- The window's registers take their reset values when step 1 has trained the host port (R281). -/
def Package.resetWindow (k : Package) : Package :=
  { k with
    ring := [], sqtail := 0, sqhead := 0, cqset := false, cqbase := 0, cqsize := 0, cqhead := 0, cqtail := 0
    nqset := false, nqbase := 0, nqsize := 0, nqhead := 0, nqtail := 0, ovr := false, nqovf := false, nqlost := 0
    pending := [], copied := 0 }

/-- The scrub of DRAM (R290, step 6). -/
def State.scrubDram (s : State) (p : Pkg) : State :=
  { s with mem := s.mem.filter fun e => !(storeIn p 0 e.1 || storeIn p 1 e.1) }

/-- A partner die holds a lease entry in the matching state (R291): the same state for ACTIVE and RECLAIMING, no entry for
one that is RETURNED. -/
def State.partnerHolds (s : State) (d : DieKey) (i : Nat) (p : Polder) : Bool :=
  let k := dieOfPeer (if p.borrower then p.lender else p.borrow)
  let held := (s.die k).polders.any fun e => e.2.borrower ≠ p.borrower && e.2.lender = p.lender && e.2.borrow = p.borrow &&
    e.2.base = p.base && e.2.len = p.len && e.2.peer = i && e.1 = p.peer && e.2.state = p.state
  s.reach d k 0 && s.alive (pkgOf k) && if p.state = 4 then true else held

/-- Checks the entries of a die that are not FREE; one that does not match becomes FENCED (R291). -/
def State.reconcileDie (s : State) (d : DieKey) : State :=
  (s.die d).polders.foldl (fun (acc : State) e =>
    if e.2.state = 5 || s.partnerHolds d e.1 e.2 then acc
    else if e.2.borrower then acc.fenceBorrower d e.1
    else (acc.updPolder d e.1 fun q => { q with state := 5 }).leaseNote d e.1 e.2 5) s

/-- The tables of a die that step 9 reloads (R209, R291). -/
def WarmSave.load (w : WarmSave) (d : DieKey) (v : Die) : Die :=
  { v with
    polders := (tabGet w.polders d.toNat).getD []
    holds := (tabGet w.holds d.toNat).getD []
    cells := (tabGet w.cells d.toNat).getD [] }

/-- Resume reconciliation (R291): the warm save is reloaded, and then every lease entry is checked with its partner. -/
def State.reconcile (s : State) (p : Pkg) : State :=
  match (s.pkg p).warm with
  | none => s
  | some w =>
    let put := fun {α : Type} (t l : Tab α) => l.foldl (fun acc e => tabPut acc e.1 e.2) t
    let s1 : State := { s with
      ranks := put s.ranks (w.ranks.map fun e => (e.1, { e.2 with asleep := true }))
      gangs := put s.gangs w.gangs
      nests := put s.nests w.nests
      strands := put s.strands w.strands
      shadowTile := put s.shadowTile w.shadowTile
      shadowAcc := put s.shadowAcc w.shadowAcc
      mem := w.ds.foldl (fun m c => Memory.write m c.1 c.2) s.mem }
    let s2 := (diesOf p).foldl (fun (acc : State) d => acc.updDie d (w.load d)) s1
    (diesOf p).foldl (fun (acc : State) d => acc.reconcileDie d) (s2.updPkg p fun k => { k with warm := none })

/-- What a step that runs does: step 1 resets the window, step 5 scrubs SRAM, step 6 scrubs DRAM and with it the warm save, step 7 reads identity and
trim values from the flash (R10), step 9 reconciles. -/
def State.stepEffect (s : State) (p : Pkg) (step : Nat) : State :=
  match step with
  | 1 => s.updPkg p Package.resetWindow
  | 5 => s.scrubSram p
  | 6 => (s.scrubDram p).updPkg p fun k => { k with warmok := false, warm := none }
  | 7 => s.updPkg p fun k => { k with ident := k.flash }
  | 9 => s.reconcile p
  | _ => s

/-- START_STEP_DONE (R290, R292): the step in progress is logged as completed, or as skipped by the kind of start, and the
next one begins; after step 9 the package is STARTED. -/
def execStartStepDone (pkg : Pkg) (cycles : BitVec 40) (s : State) : Host.Outcome State Fault Refusal :=
  .next (
    let k := s.pkg pkg
    if k.state ≠ .starting then s else
      let skip := skips k.lastKind k.step
      let e := logEntry k.step k.attempt (if skip then 0xFF else 0) (k.lastKind = 2) (if skip then 0 else cycles.toNat)
      let s1 := if skip then s else s.stepEffect pkg k.step
      s1.updPkg pkg fun v => { v with
        log := v.log ++ [e]
        attempt := 1
        step := if k.step = 9 then 9 else k.step + 1
        state := if k.step = 9 then .started else .starting })

/-- START_STEP_FAIL (R290, R292): the error is logged and the step is tried again, three times in all. In a warm start, a
failure in step 2 is that of a PHY that does not lock with the saved values: the start becomes cold from there. -/
def execStartStepFail (pkg : Pkg) (code : BitVec 8) (cycles : BitVec 40) (s : State) : Host.Outcome State Fault Refusal :=
  .next (s.updPkg pkg fun k =>
    if k.state ≠ .starting || code = 0 || code = 0xFF || (skips k.lastKind k.step && k.step ≠ 2) then k else
      let e := logEntry k.step k.attempt code.toNat (k.lastKind = 2) cycles.toNat
      let cold := k.lastKind = 2 && k.step = 2
      { k with
        log := k.log ++ [e]
        lastKind := if cold then 1 else k.lastKind
        warmok := if cold then false else k.warmok
        warm := if cold then none else k.warm
        attempt := if k.attempt ≥ 3 then k.attempt else k.attempt + 1
        state := if k.attempt ≥ 3 then .failed else .starting
        resumable := k.attempt ≥ 3 })

/-! ### The command window -/

/-- A write of SQTAIL (R280, R281). -/
def Package.doorbell (k : Package) (v : Word) : Package :=
  let new : BitVec 8 := v.setWidth 8
  if (k.sqtail - k.sqhead).toNat + (new - k.sqtail).toNat > 255 then { k with ovr := true } else { k with sqtail := new }

/-- SQTAIL_DOORBELL (R281). -/
def execSqtailDoorbell (pkg : Pkg) (value : Word) (s : State) : Host.Outcome State Fault Refusal :=
  .next (s.updPkg pkg fun k => if k.portUp then k.doorbell value else k)

/-- A write of CQHEAD: completions that waited for room are written (R282). -/
def State.advanceCq (s : State) (p : Pkg) (v : Word) : State :=
  if !(s.pkg p).portUp then s
  else (s.updPkg p fun k => { k with cqhead := v }).flush p ((s.pkg p).pending.length)

/-- CQHEAD_ADVANCE (R282). -/
def execCqheadAdvance (pkg : Pkg) (value : Word) (s : State) : Host.Outcome State Fault Refusal :=
  .next (s.advanceCq pkg value)

/-- Sets one word of a command. -/
def setCommandWord (c : Command) (i : Nat) (v : Word) : Command :=
  match i with
  | 0 => { c with w0 := v }
  | 1 => { c with w1 := v }
  | 2 => { c with w2 := v }
  | 3 => { c with w3 := v }
  | 4 => { c with w4 := v }
  | 5 => { c with w5 := v }
  | 6 => { c with w6 := v }
  | _ => { c with w7 := v }

def zeroCommand : Command := ⟨0, 0, 0, 0, 0, 0, 0, 0⟩

/-- A ring size (R281): a power of two from 16 to 65,536. -/
def ringSize (v : Word) : Bool := (natRange 4 13).any fun i => v.toNat = 2 ^ i

/-- A write of the window, at an offset that is a multiple of 8 (R281). The ring registers change only while both rings are
empty and no command is pending. -/
def Package.writeWindow (k : Package) (off : Nat) (v : Word) : Package :=
  let idle := k.cqhead = k.cqtail && k.nqhead = k.nqtail && k.sqhead = k.sqtail && k.pending.isEmpty
  let base := idle && v.toNat % 16 = 0
  let size := idle && ringSize v
  if off < 0x4000 then
    { k with ring := tabPut k.ring (off / 64) (setCommandWord (tabAt k.ring zeroCommand (off / 64)) (off % 64 / 8) v) }
  else match off with
    | 0x4000 => k.doorbell v
    | 0x4010 => if base then { k with cqset := true, cqbase := v } else k
    | 0x4018 => if size then { k with cqsize := v } else k
    | 0x4030 => if base then { k with nqset := true, nqbase := v } else k
    | 0x4038 => if size then { k with nqsize := v } else k
    | 0x4040 => { k with nqhead := v }
    | 0x4050 => { k with
        ovr := k.ovr && !bit v 0
        nqovf := k.nqovf && !bit v 2
        nqlost := if fld v 31 16 ≠ 0 then 0 else k.nqlost }
    | _ => k

/-- HOST_REGISTER_WRITE (R278, R281): a register of the window, or at offset 0xFFF8 the start-control register (log 34). -/
def execHostRegisterWrite (pkg : Pkg) (off : BitVec 16) (value : Word) (s : State) : Host.Outcome State Fault Refusal :=
  .next (
    if off = 0xFFF8 then s.writeStart pkg value
    else if off.toNat % 8 ≠ 0 || !(s.pkg pkg).portUp then s
    else if off = 0x4020 then s.advanceCq pkg value
    else s.updPkg pkg fun k => k.writeWindow off.toNat value)

/-! ### Limits -/

/-- A LIMIT setting (R287): none for an unknown selector, false for a value out of range. -/
def State.limit (s : State) (p : Pkg) (sel v : Word) : Option (Bool × State) :=
  if sel = 0 then
    if 600 ≤ v.toNat && v.toNat ≤ 1900 then some (true, s.updPkg p fun k => { k with plimit := v }) else some (false, s)
  else if sel = 1 then
    if 70 ≤ v.toNat && v.toNat ≤ 100 then some (true, s.updPkg p fun k => { k with tlimit := v }) else some (false, s)
  else if 0x1000 ≤ sel.toNat && sel.toNat < 0x1400 && sel.toNat % 256 < 8 then
    if v.toNat ≥ 2 ^ 32 then some (false, s)
    else some (true, s.updDie (BitVec.ofNat 12 (p.toNat + (sel.toNat - 0x1000) / 256 * 1024)) fun d => { d with
      limits := vset d.limits (sel.toNat % 256) (v.setWidth 32) })
  else none

/-- I3C_LIMIT_WRITE (R294): a setting out of range changes nothing. -/
def execI3cLimitWrite (pkg : Pkg) (sel : Word) (value : Word) (s : State) : Host.Outcome State Fault Refusal :=
  .next (if !s.alive pkg then s else match s.limit pkg sel value with
    | some (_, s1) => s1
    | none => s)

/-- LIMIT_ENGAGE (R289, R294): a limit engages or releases; it changes timing only, and the host is told. -/
def execLimitEngage (pkg : Pkg) (thermal : Bool) (engaged : Bool) (die : BitVec 2) (s : State) :
    Host.Outcome State Fault Refusal :=
  .next (if !s.alive pkg then s else
    s.notify pkg (BitVec.ofNat 128 (0x06 + b2n thermal * 2 ^ 8 + b2n engaged * 2 ^ 9 +
      (if thermal then die.toNat * 2 ^ 10 else 0))))

end Sys2Proof.Machine
end

