-- ==== Sys2Proof/Machine/Sluice.lean ====
section
/-! DEFINITION. The Sluice's commands (R216 to R218, R280 to R288, R496): acceptance, the common statuses, memory, queues,
counters, CSRs, tables, leases, migration, ranks, invalidation and limits. -/

namespace Sys2Proof.Machine

/-! ### Acceptance and completion -/

/-- What a command comes to: the state, and its status and value unless its completion comes later. -/
abbrev Reply := State × Option (BitVec 8 × Word)

/-- A reply that completes now. -/
def reply (s : State) (status : BitVec 8) (value : Word) : Try Reply := .ok (s, some (status, value))

/-- Reserved bits of W0 and W1 (R283). PRIV is LAUNCH's; R283 does not say what it comes to in another command, and the model takes it as
a reserved bit there (log 119). -/
def commandForm (c : Command) : Bool :=
  fld c.w0 15 9 = 0 && fld c.w1 63 16 = 0 && (!bit c.w0 8 || c.op = 0x06)

/-- A command is accepted and carried out (R280, R283, R290). A command that must wait, because the page of its access is
held, is not accepted yet, and the page comes next (R135). `early` is a command that the Sluice carries out before start step 7. -/
def onSluice (s : State) (p : Pkg) (c : Command) (early form : Bool) (body : State → Nat → Try Reply) :
    Host.Outcome State Fault Refusal :=
  .next (
    if !(s.pkg p).accepts then s else
      let (ticket, s1) := s.accept p c
      if !(s.pkg p).loaded && !early then s1.finish p ticket 0xF3 0
      else if !(commandForm c && form) then s1.finish p ticket 0xF0 0
      else match body s1 ticket with
        | .error x => s.asksOf x
        | .ok (s2, none) => s2
        | .ok (s2, some (status, value)) => s2.finish p ticket status value)

/-- The key of the rank that a command acts for (R283). -/
def commandKey (c : Command) : Nat := fld c.w0 63 32 * 65536 + fld c.w1 15 0

/-- A command for a rank: it goes to the rank's home die (R288), once requests to that die are not held (R257). -/
def onRank (s : State) (p : Pkg) (c : Command) (form : Bool) (body : State → Nat → Nat → Rank → Try Reply) :
    Host.Outcome State Fault Refusal :=
  onSluice s p c false form fun s1 ticket =>
    match s1.rank? (commandKey c) with
    | none => reply s1 0xF1 0
    | some r =>
      if s1.legHeld (sluiceDie p) (sluiceDie p) r.home then .error s1
      else if !s1.reach (sluiceDie p) r.home 0 then reply s1 0xF2 0
      else body (s1.setRank (commandKey c) { r with asleep := false }) ticket (commandKey c) { r with asleep := false }

/-- A command that completes at once with a status. -/
def onRankNow (s : State) (p : Pkg) (c : Command) (form : Bool) (body : State → Nat → Rank → State × BitVec 8) :
    Host.Outcome State Fault Refusal :=
  onRank s p c form fun s1 _ key r =>
    let (s2, status) := body s1 key r
    reply s2 status 0

/-- UNKNOWN_OP (R283). -/
def execUnknownOp (pkg : Pkg) (c : Command) (s : State) : Host.Outcome State Fault Refusal :=
  onSluice s pkg c false false fun s1 _ => reply s1 0xF0 0

/-! ### Memory -/

/-- A run of host memory that does not pass the top of the address space. -/
def hostRun (a : Word) (n : Nat) : Bool := a.toNat + n ≤ 2 ^ 64

/-- Writes bytes piece by piece in ascending address order; a failed access ends the write with its cause (R283, R284). -/
def State.putPieces (s : State) (c : Client) (base : Nat) (v : Nat) : List (Nat × Nat) → State × Res Unit
  | [] => (s, .ok ())
  | (va, n) :: rest => match s.access c (wd va) 1 true with
    | (s1, .fault e) => (s1, .fault e)
    | (s1, .stall w) => (s1, .stall w)
    | (s1, .ok t) => (s1.wr t.addr n (v / 2 ^ (8 * (va - base)))).putPieces c base v rest

/-- WRITE (R284). -/
def execWrite (pkg : Pkg) (c : Command) (s : State) : Host.Outcome State Fault Refusal :=
  let n := c.w3.toNat
  onRank s pkg c (1 ≤ n && n ≤ 32) fun s1 _ key r =>
    let v := packNat 64 [c.w4.toNat, c.w5.toNat, c.w6.toNat, c.w7.toNat]
    match s1.putPieces (r.client key) c.w2.toNat v (cut c.w2 n) with
    | (s2, .ok _) => reply s2 0 0
    | (s2, .fault e) => reply s2 e 0
    | (s2, .stall _) => .error s2

/-- Copies host bytes to device memory piece by piece. -/
def State.copyInPieces (s : State) (c : Client) (base host : Nat) : List (Nat × Nat) → State × Res Unit
  | [] => (s, .ok ())
  | (va, n) :: rest => match s.access c (wd va) 1 true with
    | (s1, .fault e) => (s1, .fault e)
    | (s1, .stall w) => (s1, .stall w)
    | (s1, .ok t) => (s1.copyBytes (host + (va - base)) t.addr n).copyInPieces c base host rest

/-- Copies device bytes to host memory piece by piece. -/
def State.copyOutPieces (s : State) (c : Client) (base host : Nat) : List (Nat × Nat) → State × Res Unit
  | [] => (s, .ok ())
  | (va, n) :: rest => match s.access c (wd va) 1 false with
    | (s1, .fault e) => (s1, .fault e)
    | (s1, .stall w) => (s1, .stall w)
    | (s1, .ok t) => (s1.copyBytes t.addr (host + (va - base)) n).copyOutPieces c base host rest

/-- The form of COPYIN and COPYOUT (R283). -/
def copyForm (c : Command) : Bool := c.w4.toNat % 8 = 0 && c.w4.toNat ≤ 2 ^ 20 && hostRun c.w3 c.w4.toNat

/-- COPYIN (R284). -/
def execCopyin (pkg : Pkg) (c : Command) (s : State) : Host.Outcome State Fault Refusal :=
  onRank s pkg c (copyForm c) fun s1 _ key r =>
    match s1.copyInPieces (r.client key) c.w2.toNat (hostAddr pkg.toNat c.w3.toNat) (cut c.w2 c.w4.toNat) with
    | (s2, .ok _) => reply s2 0 0
    | (s2, .fault e) => reply s2 e 0
    | (s2, .stall _) => .error s2

/-- COPYOUT (R284). -/
def execCopyout (pkg : Pkg) (c : Command) (s : State) : Host.Outcome State Fault Refusal :=
  onRank s pkg c (copyForm c) fun s1 _ key r =>
    match s1.copyOutPieces (r.client key) c.w2.toNat (hostAddr pkg.toNat c.w3.toNat) (cut c.w2 c.w4.toNat) with
    | (s2, .ok _) => reply s2 0 0
    | (s2, .fault e) => reply s2 e 0
    | (s2, .stall _) => .error s2

/-- READ (R284). -/
def execRead (pkg : Pkg) (c : Command) (s : State) : Host.Outcome State Fault Refusal :=
  onRank s pkg c (c.w2.toNat % 8 = 0) fun s1 _ key r =>
    match s1.readVa (r.client key) c.w2 8 with
    | (s2, .ok v) => reply s2 0 (wd v)
    | (s2, .fault e) => reply s2 e 0
    | (s2, .stall _) => .error s2

/-- SIGNAL (R216): checked as the address of a STG.REL (R207). -/
def execSignal (pkg : Pkg) (c : Command) (s : State) : Host.Outcome State Fault Refusal :=
  onRank s pkg c true fun s1 _ key r =>
    if fld c.w2 63 57 ≠ 0 then reply s1 cADDR_RANGE 0
    else if c.w2.toNat % 64 ≠ 0 then reply s1 cALIGN 0
    else if fld c.w2 56 52 = 31 then reply s1 cADDR_RANGE 0
    else match s1.writeVa (r.client key) c.w2 8 c.w3.toNat with
      | (s2, .ok _) => reply s2 0 0
      | (s2, .fault e) => reply s2 e 0
      | (s2, .stall _) => .error s2

/-! ### Queues, counters, CSRs -/

/-- LAUNCH (R217, R78). -/
def execLaunch (pkg : Pkg) (c : Command) (s : State) : Host.Outcome State Fault Refusal :=
  onRankNow s pkg c (c.w3.toNat < 4) fun s1 key _ => s1.push key (c.w3.setWidth 2) ⟨c.w2, bit c.w0 8, true⟩

/-- CNTW (R218, R284). -/
def execCntw (pkg : Pkg) (c : Command) (s : State) : Host.Outcome State Fault Refusal :=
  onRankNow s pkg c (c.w2.toNat < 1024 && c.w3.toNat < 2 ^ 32) fun s1 key _ =>
    if c.w2 = 0 then (s1, 0xF3)
    else (s1.updRank key fun r => { r with counters := tabSet r.counters 0 c.w2.toNat (c.w3.setWidth 32) }, 0)

/-- The rank CSRs that the Sluice writes (R284). -/
def rankCsr (n : Nat) : Bool :=
  n = 0x201 || (0x300 ≤ n && n ≤ 0x3FF) || (0x481 ≤ n && n ≤ 0x49D) || (0x610 ≤ n && n ≤ 0x61F)

/-- The rank after a write of a rank CSR; none where a CSR.W would fault (R87). -/
def Rank.writeCsr (r : Rank) (n : Nat) (v : Word) : Option Rank :=
  if n = 0x201 then some { r with pend := some (BitVec.ofNat 2 (fld v 1 0)) }
  else if n ≤ 0x3FF then some { r with decay := tabSet r.decay 0 (n - 0x300) (BitVec.ofNat 48 v.toNat) }
  else if n ≤ 0x49D then some { r with dmap := vset r.dmap (n - 0x480) (v &&& 0x8000000000000FFF) }
  else r.writeRegion n v

/-- CSRW (R284): a die map entry changes for every strand of the rank and every later dispatch. -/
def execCsrw (pkg : Pkg) (c : Command) (s : State) : Host.Outcome State Fault Refusal :=
  let n := c.w2.toNat
  onRankNow s pkg c (rankCsr n) fun s1 key r =>
    match r.writeCsr n c.w3 with
    | none => (s1, 2)
    | some r1 =>
      let s2 := s1.setRank key r1
      if 0x481 ≤ n && n ≤ 0x49D then
        ({ s2 with strands := s2.strands.map fun e =>
            if e.2.rank = key then (e.1, { e.2 with dmap := vset e.2.dmap (n - 0x480) (c.w3 &&& 0x8000000000000FFF) }) else e }, 0)
      else (s2, 0)

/-! ### Tables (R496) -/

/-- The form of W2 for a table: the code, and the die of a table held per die. -/
def tableForm (c : Command) (perDie : Bool) : Bool := fld c.w2 15 8 = 0 && fld c.w2 63 28 = 0 && (perDie || fld c.w2 27 16 = 0)

/-- A table held per die: JOB and VRANK are neither used nor checked. The command goes to the die once requests there are not held
(R257). -/
def onDieTable (s : State) (p : Pkg) (c : Command) (form : Bool) (body : State → DieKey → State × BitVec 8) :
    Host.Outcome State Fault Refusal :=
  onSluice s p c false (tableForm c true && form) fun s1 _ =>
    let d : DieKey := BitVec.ofNat 12 (fld c.w2 27 16)
    if s1.legHeld (sluiceDie p) (sluiceDie p) d then .error s1
    else if !s1.reach (sluiceDie p) d 0 then reply s1 0xF2 0
    else
      let (s2, status) := body s1 d
      reply s2 status 0

/-- TABLEW of a space root (R165, R166). -/
def execTablewSpaceRoot (pkg : Pkg) (c : Command) (s : State) : Host.Outcome State Fault Refusal :=
  onDieTable s pkg c (c.w3.toNat < 1024 && fld c.w4 63 32 ≤ 0x10000 && c.w6 = 0 && c.w7 = 0) fun s1 d =>
    let job : BitVec 32 := c.w4.setWidth 32
    let key := fld c.w4 63 32
    let slot := c.w3.toNat
    let held := (s1.die d).spaces.any fun e => e.1 ≠ slot && e.2.job = job && e.2.key = key
    if held || fld c.w5 7 2 ≠ 0 || fld c.w5 63 52 ≠ 0 then (s1, 1)
    else if !bit c.w5 0 then (s1.updDie d fun v => { v with spaces := tabDel v.spaces slot }, 0)
    else
      let e : Space := ⟨job, key, c.w5⟩
      (s1.updDie d fun v => { v with spaces := tabPut v.spaces slot e }, 0)

/-- Eight 16-bit members of a replica set (R496). -/
def setMembers (c : Command) : List Nat := unpackNat 16 4 c.w4.toNat ++ unpackNat 16 4 c.w5.toNat

/-- TABLEW of a replica set (R171). -/
def execTablewReplicaSet (pkg : Pkg) (c : Command) (s : State) : Host.Outcome State Fault Refusal :=
  let l := setMembers c
  onDieTable s pkg c (1 ≤ c.w3.toNat && c.w3.toNat ≤ 255 && l.all (fun m => m / 2 ^ 12 % 8 = 0) && c.w6 = 0 && c.w7 = 0)
    fun s1 d =>
      let members : List (BitVec 12) := (l.filter fun m => m ≥ 2 ^ 15).map (BitVec.ofNat 12)
      (s1.updDie d fun v => { v with rsets := tabSet v.rsets [] c.w3.toNat members }, 0)

/-- TABLEW of MTHR (R173). Where a threshold falls to a count that a page has reached, the copy begins with the next request to the page
(log 77). -/
def execTablewMthr (pkg : Pkg) (c : Command) (s : State) : Host.Outcome State Fault Refusal :=
  onDieTable s pkg c (c.w3.toNat < 8 && c.w4.toNat < 2 ^ 16 && c.w5 = 0 && c.w6 = 0 && c.w7 = 0) fun s1 d =>
    (s1.updDie d fun v => { v with mthr := vset v.mthr c.w3.toNat (c.w4.setWidth 16) }, 0)

/-- The frame pool of a tier. -/
def Die.pool (v : Die) (lpddr : Bool) : List Extent := if lpddr then v.lpddrPool else v.hbmPool

def Die.setPool (v : Die) (lpddr : Bool) (l : List Extent) : Die :=
  if lpddr then { v with lpddrPool := l } else { v with hbmPool := l }

/-- The table pool of a tier, in parts of 256 bytes. -/
def Die.tables (v : Die) (lpddr : Bool) : List Extent := if lpddr then v.lpddrTables else v.hbmTables

def Die.setTables (v : Die) (lpddr : Bool) (l : List Extent) : Die :=
  if lpddr then { v with lpddrTables := l } else { v with hbmTables := l }

/-- The form of a pool write: tier and direction in W3, a count of at least one in W5. -/
def poolForm (c : Command) : Bool := c.w3.toNat < 4 && 1 ≤ c.w5.toNat && c.w6 = 0 && c.w7 = 0

/-- Frames of a tier's memory. -/
def tierFrames (lpddr : Bool) : Nat := if lpddr then Config.lpddrFrames else Config.hbmFrames

/-- TABLEW that adds frames to a pool (R179): none beyond the memory, none already there. -/
def execTablewFramePoolAdd (pkg : Pkg) (c : Command) (s : State) : Host.Outcome State Fault Refusal :=
  onDieTable s pkg c (poolForm c) fun s1 d =>
    let t := bit c.w3 0
    let l := (s1.die d).pool t
    if c.w4.toNat + c.w5.toNat > tierFrames t || extentMeets l c.w4.toNat c.w5.toNat then (s1, 1)
    else (s1.updDie d fun v => v.setPool t (extentAdd l c.w4.toNat c.w5.toNat), 0)

/-- TABLEW that removes frames from a pool: every one must be in it. -/
def execTablewFramePoolRemove (pkg : Pkg) (c : Command) (s : State) : Host.Outcome State Fault Refusal :=
  onDieTable s pkg c (poolForm c) fun s1 d =>
    let t := bit c.w3 0
    let l := (s1.die d).pool t
    if c.w4.toNat + c.w5.toNat > tierFrames t || !extentHas l c.w4.toNat c.w5.toNat then (s1, 1)
    else (s1.updDie d fun v => v.setPool t (extentDel l c.w4.toNat c.w5.toNat), 0)

/-- TABLEW that adds 8 KiB blocks to a table pool (R179). -/
def execTablewTablePoolAdd (pkg : Pkg) (c : Command) (s : State) : Host.Outcome State Fault Refusal :=
  onDieTable s pkg c (poolForm c && c.w4.toNat % 8192 = 0) fun s1 d =>
    let t := bit c.w3 0
    let l := (s1.die d).tables t
    let first := c.w4.toNat / 256
    let n := 32 * c.w5.toNat
    if c.w4.toNat + 8192 * c.w5.toNat > tierBytes t || extentMeets l first n then (s1, 1)
    else (s1.updDie d fun v => v.setTables t (extentAdd l first n), 0)

/-- TABLEW that removes 8 KiB blocks from a table pool: each must be wholly in it. -/
def execTablewTablePoolRemove (pkg : Pkg) (c : Command) (s : State) : Host.Outcome State Fault Refusal :=
  onDieTable s pkg c (poolForm c && c.w4.toNat % 8192 = 0) fun s1 d =>
    let t := bit c.w3 0
    let l := (s1.die d).tables t
    let first := c.w4.toNat / 256
    let n := 32 * c.w5.toNat
    if c.w4.toNat + 8192 * c.w5.toNat > tierBytes t || !extentHas l first n then (s1, 1)
    else (s1.updDie d fun v => v.setTables t (extentDel l first n), 0)

/-- A communicator entry with V = 1 that violates a condition of R259: MEMB is a 2-byte aligned address of domain 0. -/
def commBad (c : Command) : Bool :=
  bit c.w4 16 && (fld c.w4 15 0 = 0 || bit c.w4 19 || fld c.w4 63 52 ≠ 0 || c.w5.toNat % 2 ≠ 0 || fld c.w5 63 52 ≠ 0 ||
    fld c.w6 31 0 % 65536 ≠ 0 || fld c.w6 47 32 = 0)

/-- TABLEW of a communicator (R259): OVF and SEQ become zero. -/
def execTablewCommunicator (pkg : Pkg) (c : Command) (s : State) : Host.Outcome State Fault Refusal :=
  onRankNow s pkg c (tableForm c false && c.w3.toNat < 64 && fld c.w6 63 48 = 0 && c.w7 = 0) fun s1 key _ =>
    if commBad c then (s1, 1)
    else
      let e : Comm := { w0 := c.w4 &&& 0x000FFFFFFFF7FFFF, w1 := c.w5, w2 := c.w6.setWidth 48, ovf := 0, seq := 0 }
      (s1.updRank key fun r => { r with comms := tabSet r.comms Comm.reset c.w3.toNat e }, 0)

/-- TABLEW of an endpoint entry (R258): the home die sets CO. -/
def execTablewEndpoint (pkg : Pkg) (c : Command) (s : State) : Host.Outcome State Fault Refusal :=
  onRank s pkg c (tableForm c false && fld c.w4 62 21 = 0 && fld c.w4 19 18 = 0 && c.w5 = 0 && c.w6 = 0 && c.w7 = 0)
    fun s1 _ key r =>
      if c.w3.toNat > r.nrankm1.toNat then reply s1 0xF0 0
      else match s1.putEndpoint key r c.w3.toNat c.w4 with
        | (s2, .ok _) => reply s2 0 0
        | (s2, .fault e) => reply s2 e 0
        | (s2, .stall _) => .error s2

/-- TABLEW of the save bases (R232). -/
def execTablewSaveBases (pkg : Pkg) (c : Command) (s : State) : Host.Outcome State Fault Refusal :=
  onRankNow s pkg c (tableForm c false && c.w3 = 0 && fld c.w5 63 16 = 0 && c.w7 = 0) fun s1 key _ =>
    if c.w4.toNat % 2 ^ 21 ≠ 0 || c.w6.toNat % 2 ^ 21 ≠ 0 then (s1, 1)
    else (s1.updRank key fun r => { r with savebase := c.w4, nimg := c.w5.toNat, csbase := c.w6 }, 0)

/-! ### Leases -/

/-- LEASE: the rank that the command acts for exists (R283), and the command goes from the Sluice to the die that it names, wherever the
rank is at home (R288, log 112). -/
def onLease (s : State) (p : Pkg) (c : Command) (form : Bool) (body : State → Nat → Try Reply) :
    Host.Outcome State Fault Refusal :=
  onSluice s p c false form fun s1 ticket =>
    match s1.rank? (commandKey c) with
    | none => reply s1 0xF1 0
    | some r => body (s1.setRank (commandKey c) { r with asleep := false }) ticket

/-- LEASE, LEND form (R187): the completion comes with the outcome. Its VALUE is the word that LEND writes to `gd`, and a lender that is
not reached gives status 5 of R189, not 0xF2 of R283 (log 112). -/
def execSluiceLend (pkg : Pkg) (c : Command) (s : State) : Host.Outcome State Fault Refusal :=
  onLease s pkg c (c.w2 = 0) fun s1 ticket =>
    let lender := dieOfPeer (BitVec.ofNat 12 (fld c.w3 19 8))
    if s1.reach (sluiceDie pkg) lender 0 then
      .ok (s1.send (sluiceDie pkg) lender (64 * s1.ids) (.lend c.w3 c.w4 c.w5 0 (.sluice pkg.toNat ticket)), none)
    else reply s1 5 5

/-- A LEND of a package's Sluice is on its way to a die. -/
def State.lendOut (s : State) (p : Pkg) (d : DieKey) : Bool :=
  s.msgs.any fun q => q.dst = d && match q.body with
    | .lend _ _ _ _ (.sluice k _) => k = p.toNat
    | _ => false

/-- LEASE, RECLAIM form (R188). Its VALUE is 0, and a die that is not reached gives status 5 of R189, not 0xF2 of R283 (log 112). It waits
while requests to the named die are held (R257), and until the Sluice's own LEND to the die, which comes first there (R288), has arrived. -/
def execSluiceReclaim (pkg : Pkg) (c : Command) (s : State) : Host.Outcome State Fault Refusal :=
  onLease s pkg c (c.w2 = 1) fun s1 _ =>
    let d := dieOfPeer (BitVec.ofNat 12 c.w3.toNat)
    if s1.legHeld (sluiceDie pkg) (sluiceDie pkg) d || s1.lendOut pkg d then .error s1 else
      let (s2, status) := s1.reclaim (sluiceDie pkg) c.w3
      reply s2 (BitVec.ofNat 8 status) 0

/-! ### Migration -/

/-- MIGRATE (R37, R268, R288): it completes when it is latched. -/
def execMigrate (pkg : Pkg) (c : Command) (s : State) : Host.Outcome State Fault Refusal :=
  onRankNow s pkg c (c.w2.toNat < 2 ^ 12) fun s1 key _ =>
    let d : DieKey := c.w2.setWidth 12
    if !s1.reach (sluiceDie pkg) d 0 then (s1, 0xF2) else (s1.latchMove key d, 0)

/-! ### Invalidation -/

/-- INVAL, either form (R177): the checks of TLBI; it completes once every request that such an entry translated has been
performed. -/
def invalCommand (s : State) (pkg : Pkg) (c : Command) (form space : Bool) : Host.Outcome State Fault Refusal :=
  onRank s pkg c form fun s1 _ key r =>
    match s1.spaceCheck (r.client key) c.w2 with
    | (s2, .fault e) => reply s2 e 0
    | (s2, .stall _) => .error s2
    | (s2, .ok q) =>
      if s2.translatedOut r.job q.key then .error s2
      else reply (if space then s2.invalSpace q.die r.job q.key else s2.tlbInval r.job q) 0 0

/-- INVAL, page form. -/
def execInvalPage (pkg : Pkg) (c : Command) (s : State) : Host.Outcome State Fault Refusal :=
  invalCommand s pkg c (c.w3 = 0) false

/-- INVAL, space form. -/
def execInvalSpace (pkg : Pkg) (c : Command) (s : State) : Host.Outcome State Fault Refusal :=
  invalCommand s pkg c (c.w3 = 1) true

/-! ### Ranks (R285) -/

/-- The words of a descriptor in host memory. -/
def State.hostWord (s : State) (p : Pkg) (a : Word) (i : Nat) : Word := wd (s.rd (hostAddr p.toNat (a.toNat + 8 * i)) 8)

/-- A rank descriptor breaks its table. -/
def descBad (w : Nat → Word) : Bool :=
  fld (w 0) 17 12 = 0 || fld (w 0) 17 12 > 32 || fld (w 0) 23 18 ≠ 0 || fld (w 0) 63 40 ≠ 0 || fld (w 3) 8 0 > 256 ||
  fld (w 3) 15 9 ≠ 0 || fld (w 3) 26 16 > 1024 || fld (w 3) 63 27 ≠ 0 || (w 4).toNat % 65536 ≠ 0 ||
  (w 5).toNat % 2 ^ 21 ≠ 0 || fld (w 6) 63 16 ≠ 0 || (w 7).toNat % 2 ^ 21 ≠ 0

/-- A rank as it is created (R76, R218, R252, R285). -/
def Rank.new (w : Nat → Word) (job : BitVec 32) (vrank : BitVec 16) (slot : Nat) (ds : List Nat) : Rank :=
  { job := job, vrank := vrank, nrankm1 := BitVec.ofNat 16 (fld (w 0) 39 24), home := BitVec.ofNat 12 (fld (w 0) 11 0)
    slot := slot, parts := fld (w 0) 17 12, rseed := w 1, pseed := w 2, csseg := fld (w 3) 8 0, ds := ds, endpbase := w 4
    savebase := w 5, nimg := fld (w 6) 15 0, csbase := w 7, gstep := 0, cls := 0, pend := none, migrate := none
    snapReq := none, decay := [], srbase := Vector.replicate 8 0, srlen := Vector.replicate 8 0, evq := [], evOvf := false
    evSeq := 0, queues := Vector.replicate 4 [], counters := [], comms := [], dmap := Vector.replicate 32 0, clusters := []
    jobs := [], out := [], csSaved := [], csLeft := [], precopy := none, sweeps := [], snap := none, stepping := none
    due := none, asleep := false }

/-- The rank exists: it runs, or a package's warm save will bring it back (R291, log 94). -/
def State.rankExists (s : State) (key : Nat) : Bool :=
  (s.rank? key).isSome || s.pkgs.any fun e => e.2.warm.any fun w => (tabGet w.ranks key).isSome

/-- RANK, create form (R285): VALUE is the rank image slot. The bytes of the DS segments that it is granted stay as their former
holder left them (R159, log 90). -/
def execRankCreate (pkg : Pkg) (c : Command) (s : State) : Host.Outcome State Fault Refusal :=
  onSluice s pkg c false (c.w2 = 0 && c.w3.toNat % 8 = 0 && hostRun c.w3 64) fun s1 _ =>
    let w := s1.hostWord pkg c.w3
    let job : BitVec 32 := BitVec.ofNat 32 (fld c.w0 63 32)
    let vrank : BitVec 16 := c.w1.setWidth 16
    let home : DieKey := BitVec.ofNat 12 (fld (w 0) 11 0)
    let nr := fld (w 0) 39 24
    if s1.rankExists (commandKey c) then reply s1 0xF3 0
    else if descBad w || vrank.toNat > nr then reply s1 1 0
    else if s1.legHeld (sluiceDie pkg) (sluiceDie pkg) home then .error s1
    else if !s1.reach (sluiceDie pkg) home 0 then reply s1 0xF2 0
    else if s1.ranks.any fun e => e.2.job = job && e.2.home = home && e.2.nrankm1.toNat ≠ nr then reply s1 1 0
    else match s1.freeImageSlot home with
      | none => reply s1 2 0
      | some slot => match s1.freeDs home (fld (w 3) 26 16) with
        | none => reply s1 3 0
        | some ds => reply (s1.setRank (commandKey c) (Rank.new w job vrank slot ds)) 0 (wd slot)

/-- A rank is gone: its clusters, its CS and DS regions and its image slot are free again (R158), and nothing is forwarded to it any
more (R164). -/
def State.endRank (s : State) (key : Nat) (r : Rank) : State :=
  let s1 := match r.precopy with
    | none => s
    | some p => s.giveBack p
  { s1 with
    ranks := tabDel s1.ranks key
    owner := s1.owner.filter fun e => e.2.1 ≠ key
    csSeg := (List.range r.parts).foldl (fun t lp => dropClaims key lp t) s1.csSeg |>.filter fun e => e.2.rank ≠ key
    dies := s1.dies.map fun e => (e.1, { e.2 with forwards := e.2.forwards.filter fun f => f.rank ≠ key }) }

/-- RANK, end form (R285). Switch-outs that another package's Sluice has begun on the rank come first (R280, R288). -/
def execRankEnd (pkg : Pkg) (c : Command) (s : State) : Host.Outcome State Fault Refusal :=
  onRank s pkg c (c.w2 = 1 && c.w3 = 0) fun s1 _ key r =>
    if s1.nests.any (fun e => e.2.rank = key) || s1.gangs.any (fun e => e.2.rank = key && e.2.resident) then reply s1 0xF3 0
    else if !r.jobs.isEmpty then .error s1
    else reply (s1.endRank key r) 0 0

/-! ### Limits (R287) -/

/-- LIMIT of any selector. -/
def limitCommand (s : State) (pkg : Pkg) (c : Command) : Host.Outcome State Fault Refusal :=
  onSluice s pkg c false true fun s1 _ => match s1.limit pkg c.w2 c.w3 with
    | none => reply s1 0xF0 0
    | some (true, s2) => reply s2 0 0
    | some (false, s2) => reply s2 1 0

/-- LIMIT of PLIMIT. -/
def execLimitPlimit (pkg : Pkg) (c : Command) (s : State) : Host.Outcome State Fault Refusal := limitCommand s pkg c

/-- LIMIT of TLIMIT. -/
def execLimitTlimit (pkg : Pkg) (c : Command) (s : State) : Host.Outcome State Fault Refusal := limitCommand s pkg c

/-- LIMIT of a warning threshold. -/
def execLimitThreshold (pkg : Pkg) (c : Command) (s : State) : Host.Outcome State Fault Refusal := limitCommand s pkg c

/-! ### Events -/

/-- The 32 bytes of an event queue entry (R252). -/
def Event.bytes (e : Event) : Nat := packNat 64 [e.payload.toNat, e.payload.toNat / 2 ^ 64, e.seq.toNat, e.step.toNat]

/-- Writes entries to host memory one after another. -/
def State.putEvents (s : State) (addr : Nat) : List Event → State
  | [] => s
  | e :: r => (s.wr addr 32 e.bytes).putEvents (addr + 32) r

/-- EVREAD (R252, R284): VALUE is the number of entries moved. -/
def execEvread (pkg : Pkg) (c : Command) (s : State) : Host.Outcome State Fault Refusal :=
  onRank s pkg c true fun s1 _ key r =>
    let l := r.evq.take c.w3.toNat
    if !hostRun c.w2 (32 * l.length) then reply s1 0xF0 0
    else reply ((s1.putEvents (hostAddr pkg.toNat c.w2.toNat) l).updRank key fun v => { v with
      evq := v.evq.drop l.length }) 0 (wd l.length)

end Sys2Proof.Machine
end

