-- ==== Sys2Proof/Machine/Window.lean ====
section
/-! DEFINITION. The management state window (R32, R95, R96, R295): what each offset shows, and the rows that read it. Where the
spec names the contents of a range and gives no layout within it, the layout is the model's (log 35); the words of the telemetry
are free values. -/

namespace Sys2Proof.Machine

/-- The word at a place of a list; zero past its end. -/
def pick (l : List Word) (i : Nat) : Word := l.getD i 0

/-! ### Cores and clusters -/

/-- The owner record of a segment (R156). CTX is the holder's context image for LS, and a free value while it has none (log 35); for CS it is
the logical partition. -/
def State.segWord (s : State) (cs : Bool) (e : SegRec) : Word :=
  let state := match e.state with
    | .active => 1
    | .idle => 2
    | .saving _ _ _ _ => 3
    | .restoring => 3
  let ctx := if cs then e.holder else ((s.gang? e.holder).bind (·.image)).getD (Config.windowWord (2 * e.holder + 1)).toNat
  wd (e.rank % 65536 + ctx % 65536 * 2 ^ 16 + e.lseg * 2 ^ 32 + state * 2 ^ 40)

/-- The owner record at a place of a table of segments; a segment without a record is FREE. -/
def State.segAt (s : State) (cs : Bool) (k : Nat) : Word :=
  match tabGet (if cs then s.csSeg else s.lsSeg) k with
  | none => 0
  | some e => s.segWord cs e

/-- The bank of a strand, with a flag above it: V in bit 63, LOC[19:0] in bits [51:32]. -/
def State.bankOfStrand (s : State) (u : Nat) : Nat :=
  2 ^ 63 + (((s.strand u).bind (·.place)).getD 0) % 2 ^ 20 * 2 ^ 32

/-- The owner and state of an accumulator bank (R96, R153): 0 FREE, 1 OWNED, 2 DRAINING, with the owner's bank; and in bit 2,
release pending: OWNED by a FAULTED strand that has freed it under an AST that goes on, or issues, when the strand resumes (R247). -/
def State.accWord (s : State) (core j : Nat) : Word :=
  match tabGet s.accOwner (unitKey core j) with
  | none => 0
  | some o =>
    let pending := !o.draining && (s.strand o.uid).any fun m => (m.asts.any fun a => a.stopped && a.freed.getLsbD j) ||
      (m.state == .faulted && m.early.any fun e => e.2.getLsbD j)
    wd (s.bankOfStrand o.uid + (if o.draining then 2 else 1) + 4 * b2n pending)

/-- The holder of a core's matrix array. -/
def State.arrayWord (s : State) (core : Nat) : Word :=
  match tabGet s.array core with
  | none => 0
  | some u => wd (s.bankOfStrand u)

/-- The owner tag of a shadow-store slot (R233) in two words: rank, image, core and name; gang and V. -/
def Shadow.words {n : Nat} (e : Shadow n) : List Word :=
  [wd (e.rank % 65536 + e.image % 65536 * 2 ^ 16 + e.core * 2 ^ 32 + e.name * 2 ^ 40 + 2 ^ 63),
   wd (e.rank / 65536 % 2 ^ 32 + e.gang % 2 ^ 32 * 2 ^ 32)]

/-- A word of the shadow store of a cluster: 64 tile slots of each core, 64 bank slots of each core, and the tags, 16 bytes a slot, in
the same order. -/
def State.shadowWord (s : State) (cluster off : Nat) : Word :=
  let slot := fun (n : Nat) => unitKey (coreOf cluster (n / 64)) (n % 64)
  let tag := fun (l : Option (List Word)) => pick (l.getD []) (off / 8 % 2)
  if off < 0x200000 then
    match tabGet s.shadowTile (slot (off / 4096)) with
    | none => 0
    | some e => e.data.extractLsb' (8 * (off % 4096)) 64
  else if off < 0x600000 then
    match tabGet s.shadowAcc (slot ((off - 0x200000) / 8192)) with
    | none => 0
    | some e => e.data.extractLsb' (8 * (off % 8192)) 64
  else if off < 0x602000 then tag ((tabGet s.shadowTile (slot ((off - 0x600000) / 16))).map Shadow.words)
  else if off < 0x604000 then tag ((tabGet s.shadowAcc (slot ((off - 0x602000) / 16))).map Shadow.words)
  else 0

/-- What a cluster's walker counts for a nest (R223): record address, cost of what it has been given, round, ordinals placed and
dispatched, ordinals still to dispatch here. -/
def Nest.walkWords (n : Nest) (lp : Nat) : List Word :=
  block 8 [n.addr, wd (n.loads.getD lp 0), wd n.round, wd n.placed, wd n.dispatched, wd (n.todo.filter fun e => e.2 = lp).length]

/-- A cluster's partition owner, its CS owner records, and its walker's counters, eight words for each active nest. -/
def State.clusterWord (s : State) (cluster i : Nat) : Word :=
  if 256 ≤ i && i < 256 + Config.csSegs then s.segAt true (cluster * 256 + (i - 256))
  else match tabGet s.owner cluster with
    | none => 0
    | some (key, lp) =>
      if i = 0 then wd (key / 65536 + key % 65536 * 2 ^ 32 + lp * 2 ^ 48 + 2 ^ 63)
      else if i < 512 then 0
      else pick ((s.nestsOf key).flatMap fun e => e.2.walkWords lp) (i - 512)

/-- A word of 64 full-empty bits of a core's LS. -/
def State.feWindow (s : State) (core i : Nat) : Word :=
  match granuleOf (lsAddr core 0 (1024 * i)) with
  | none => 0
  | some g => wd (packNat 1 ((List.range 64).map fun k => b2n (s.full (g + k))))

/-- A word of a bank (R95): CSR n at 8n, in the privileged view and without side effects, and the rest of the bank from 0x8000 on. A
bank without a strand is FREE: it shows the part's identity and its own place, and zeros. The tile configurations and status words
are those of the window slots at the word where the C stream stands (R81, log 89). -/
def State.bankWord (s : State) (loc off : Nat) : Word :=
  match (s.onBank loc).bind fun e => (s.rank? e.2.rank).map fun r => (e.1, e.2, r) with
  | none =>
    if off = 0 then (s.pkg (BitVec.ofNat 10 loc)).devid
    else if off = 8 then (s.pkg (BitVec.ofNat 10 loc)).ident.serial
    else if off = 16 then wd loc
    else 0
  | some (u, m, r) =>
    if off ≥ 0x8000 then pick (s.bankWords u m) ((off - 0x8000) / 8)
    else if csrAllocated (off / 8) then (s.csrRead u m r (m.rotAt .c) (off / 8)).getD 0
    else 0

/-- A word within a core's part of the window. -/
def State.coreWord (s : State) (core off : Nat) : Word :=
  if off < Config.lsBytes then wd (s.rd (lsAddr core 0 off) 8)
  else if 0x200000 ≤ off && off < 0x240000 then
    (tabAt s.tiles 0 (unitKey core ((off - 0x200000) / 4096))).extractLsb' (8 * (off % 4096)) 64
  else if 0x400000 ≤ off && off < 0x480000 then
    (tabAt s.accs 0 (unitKey core ((off - 0x400000) / 8192))).extractLsb' (8 * (off % 8192)) 64
  else if 0x480000 ≤ off && off < 0x480200 then s.accWord core ((off - 0x480000) / 8)
  else if off = 0x481000 then s.arrayWord core
  else if 0x500000 ≤ off && off < 0x500000 + Config.lsBytes / 128 then s.feWindow core ((off - 0x500000) / 8)
  else if 0x510000 ≤ off && off < 0x510000 + 8 * Config.lsSegs then s.segAt false (core * 32 + (off - 0x510000) / 8)
  else if 0x600000 ≤ off && off < 0x640000 then
    s.bankWord (bankOf core ((off - 0x600000) / 0x10000)) (off % 0x10000)
  else 0

/-! ### Dies -/

/-- A lease entry in its four words (R185). -/
def Polder.words (p : Polder) : List Word :=
  [wd (p.state.toNat + b2n p.borrower * 8 + p.dclass.toNat * 16 + p.lender.toNat * 2 ^ 8 + p.borrow.toNat * 2 ^ 20 +
     p.job.toNat * 2 ^ 32),
   wd (p.base.toNat + p.len.toNat * 2 ^ 32),
   wd (p.rmap.toNat + b2n p.rmt * 2 ^ 52),
   wd ((if !p.borrower && p.state = 3 then p.dleft.toNat else 0) + (if p.borrower && p.state = 3 then p.live.toNat else 0) * 2 ^ 32)]

/-- A TLB entry in four words: job and V, space key and size code, page, leaf word. -/
def TlbEntry.words (e : TlbEntry) : List Word :=
  [wd (e.job.toNat + 2 ^ 63), wd (e.key + e.size.toNat * 2 ^ 32), wd e.page, e.leaf]

/-- A slot of the space table in two words. -/
def Space.words (e : Space) : List Word := [wd (e.job.toNat + e.key * 2 ^ 32), e.root]

/-- A replica set in the two words of its table write (R496). -/
def setWords (l : List (BitVec 12)) : List Word :=
  wordsOf 2 (packNat 16 (l.map fun m => m.toNat + 2 ^ 15))

/-- A pool's runs of frames or table parts, two words each. -/
def poolWords (l : List Extent) : List Word := l.flatMap fun e => [wd e.first, wd e.count]

/-- The rank that has a rank image slot of a die (R8). -/
def State.inSlot (s : State) (d : DieKey) (slot : Nat) : Option (Nat × Rank) :=
  s.ranks.find? fun e => e.2.home = d && e.2.slot = slot

/-- The rank state of an image slot in its first 128 words: the items of R72 that are single, the descriptor's, the latch, queue
lengths, and the die map from word 64 on. -/
def Rank.headWords (r : Rank) : List Word :=
  block 64 ([wd r.gstep.toNat, wd r.cls.toNat, wd (latchWord (r.pend.or (r.due.bind (·.cls)))), r.rseed, r.pseed] ++ r.srbase.toList ++
    r.srlen.toList ++
    [wd (r.job.toNat + r.vrank.toNat * 2 ^ 32 + r.nrankm1.toNat * 2 ^ 48), wd (r.home.toNat + r.slot * 2 ^ 12 + r.parts * 2 ^ 20 + 2 ^ 63),
     wd (r.csseg + r.ds.length * 2 ^ 16), r.endpbase, r.savebase, wd r.nimg, r.csbase,
     wd (r.evq.length + b2n r.evOvf * 2 ^ 16), r.evSeq,
     (match r.migrate with
      | none => 0
      | some d => wd (2 ^ 63 + d.toNat))] ++
    (match r.snapReq with
      | none => [0, 0, 0]
      | some q => [1, q.base, q.layout]) ++
    r.queues.toList.map fun q => wd q.length) ++
  block 64 (wd (2 ^ 63 + r.home.toNat) :: r.dmap.toList.drop 1)

/-- A word of the rank state of an image slot, 8,192 of them: the head, and from word 128 on the decay table, from 384 the
communicators, from 640 the counters two to a word, from 2,048 the work queues, from 4,096 the event queue. -/
def Rank.slotWord (r : Rank) (i : Nat) : Word :=
  if i < 128 then pick r.headWords i
  else if i < 384 then wd (tabAt r.decay 0 (i - 128)).toNat
  else if i < 640 then pick (((tabAt r.comms Comm.reset ((i - 384) / 4)).words 0).drop 1) (i % 4)
  else if i < 1152 then
    wd ((tabAt r.counters 0 (2 * (i - 640))).toNat + (tabAt r.counters 0 (2 * (i - 640) + 1)).toNat * 2 ^ 32)
  else if i < 2048 then 0
  else if i < 4096 then pick (((r.queues.toList.getD ((i - 2048) / 512) []).flatMap QueueEntry.words)) (i % 512)
  else pick (r.evq.flatMap Event.words) (i - 4096)

/-- The error queues of a rank's strands, 128 words each, in the order of the strands. -/
def State.errqWord (s : State) (key i : Nat) : Word :=
  pick ((s.strands.filter fun e => e.2.rank = key).flatMap fun e => errqWords e.2) i

/-- A word of the tables of a die, `i` words from their start: TLB, lease entries, space roots, replica sets, MTHR, pools, error
counters with their thresholds, the route copy; and for each rank image slot its rank state with its strands' error queues. -/
def State.dieTable (s : State) (d : DieKey) (i : Nat) : Word :=
  let v := s.die d
  let at_ := i % 0x200000
  match i / 0x200000 with
  | 0 => pick (v.tlb.flatMap TlbEntry.words) at_
  | 1 => pick (((tabGet v.polders (at_ / 4)).map Polder.words).getD []) (at_ % 4)
  | 2 => pick (((tabGet v.spaces (at_ / 2)).map Space.words).getD []) (at_ % 2)
  | 3 => pick (setWords (tabAt v.rsets [] (at_ / 2))) (at_ % 2)
  | 4 => pick (v.mthr.toList.map fun t => wd t.toNat) at_
  | 5 => pick (poolWords ([v.hbmPool, v.lpddrPool, v.hbmTables, v.lpddrTables].getD (at_ / 0x80000) [])) (at_ % 0x80000)
  | 6 => pick (v.counters.toList ++ v.limits.toList.map fun t => wd t.toNat) at_
  | 7 => if at_ < 1024 then tabAt (s.pkg (pkgOf d)).routes 0 at_ else 0
  | k => if k < 8 || k ≥ 16 then 0 else
    let slot := (i - 0x1000000) / 0x40000
    match s.inSlot d slot with
    | none => 0
    | some (key, r) =>
      let w := i % 0x40000
      if w < 0x2000 then r.slotWord w else s.errqWord key (w - 0x2000)

/-- A word within a die's part of the window. -/
def State.dieWord (s : State) (d : DieKey) (off : Nat) : Word :=
  if 0x80000000 ≤ off then
    if off < 0x84000000 then wd (s.rd (dsAddr d.toNat 0 (off - 0x80000000)) 8)
    else if 0x90000000 ≤ off && off < 0xA0000000 then s.dieTable d ((off - 0x90000000) / 8)
    else if 0xA0000000 ≤ off && off < 0xA0400000 then
      match s.inSlot d ((off - 0xA0000000) / 0x10000) with
      | none => 0
      | some (_, r) => r.slotWord (off % 0x10000 / 8)
    else 0
  else
    let cluster := d.toNat + off / 0x10000000 * 2 ^ 12
    let o := off % 0x10000000
    if o < 0x8000000 then s.coreWord (coreOf cluster (o / 0x1000000)) (o % 0x1000000)
    else if o < 0x9000000 then wd (s.rd (csAddr cluster 0 (o - 0x8000000)) 8)
    else if o < 0x9800000 then s.shadowWord cluster (o - 0x9000000)
    else if o < 0xA000000 then s.clusterWord cluster ((o - 0x9800000) / 8)
    else 0

/-! ### Packages -/

/-- The Sluice's registers (R278, R281, R287); SQSTAT with OVR, CQFULL, NQOVF, READY and NQLOST. -/
def Package.sluiceWords (k : Package) : List Word :=
  let st := match k.state with
    | .off => 0
    | .starting => 1
    | .started => 2
    | .failed => 3
  [wd (st + k.step * 2 ^ 8 + k.attempt * 2 ^ 16 + b2n k.warmok * 2 ^ 24 + b2n k.trip * 2 ^ 25), wd k.sqtail.toNat, wd k.sqhead.toNat,
   k.cqbase, k.cqsize, k.cqhead, k.cqtail, k.nqbase, k.nqsize, k.nqhead, k.nqtail,
   wd (b2n k.ovr + b2n k.cqFull * 2 + b2n k.nqovf * 4 + b2n k.ready * 8 + k.nqlost.toNat * 2 ^ 16), wd k.pending.length, k.plimit, k.tlimit]

/-- The flash's identity and trim values, as the last configuration load read them (R10). -/
def Package.identWords (k : Package) : List Word := [k.devid, k.ident.serial, wd k.ident.trims.length] ++ k.ident.trims

/-- An aligned word of a package's window; none for telemetry, whose values no rule gives. -/
def State.windowAt (s : State) (p : Pkg) (off : Nat) : Option Word :=
  let k := s.pkg p
  if off < 0x200 then some (pick k.log (off / 8))
  else if off < 0x1000 then some 0
  else if off < 0x2000 then some (pick k.sluiceWords ((off - 0x1000) / 8))
  else if off < 0x4000 then none
  else if off < 0x10000 then some (pick k.identWords ((off - 0x4000) / 8))
  else if off < 0x12000 then some (tabAt k.routes 0 ((off - 0x10000) / 8))
  else if off < 0x100000000 then some 0
  else if off < 0x500000000 then
    some (s.dieWord (BitVec.ofNat 12 (p.toNat + (off / 0x100000000 - 1) * 1024)) (off % 0x100000000))
  else some 0

/-- Reads a word of the window; a word of the telemetry is a free value. -/
def State.readWindow (s : State) (p : Pkg) (off : Nat) : State × Word :=
  match s.windowAt p off with
  | some w => (s, w)
  | none => ({ s with nfree := s.nfree + 1 }, Config.windowWord (2 * s.nfree))

/-- SWREAD (R284, R95): the start log can be read before start step 7 (R290). -/
def execSwread (pkg : Pkg) (c : Command) (s : State) : Host.Outcome State Fault Refusal :=
  onSluice s pkg c (c.w2.toNat < 0x200) (c.w2.toNat % 8 = 0 && c.w2.toNat < 2 ^ 48) fun s1 _ =>
    let (s2, w) := s1.readWindow pkg c.w2.toNat
    reply s2 0 w

/-- Copies the bytes of the window from byte `done` of a range on, as far as the aligned word they lie in and the range go, to host
memory; the answer counts them. -/
def State.copyWord (s : State) (p : Pkg) (off host n done : Nat) : State × Nat :=
  let a := off + done
  let k := min (n - done) (8 - a % 8)
  let (s1, w) := s.readWindow p (a / 8 * 8)
  (s1.wr (host + done) k (w.toNat / 2 ^ (8 * (a % 8))), k)

/-- SWCOPY (R284): one aligned word of the window at each turn of the Sluice, so that the words of a running unit are not all of one
instant (R32). The command stays at SQHEAD until its last word (log 113). -/
def execSwcopy (pkg : Pkg) (c : Command) (s : State) : Host.Outcome State Fault Refusal :=
  let n := c.w4.toNat
  let done := (s.pkg pkg).copied
  let (s2, k) := s.copyWord pkg c.w2.toNat (hostAddr pkg.toNat c.w3.toNat) n done
  let form := n ≤ 2 ^ 20 && c.w2.toNat + n ≤ 2 ^ 48 && hostRun c.w3 n
  if (s.pkg pkg).accepts && (s.pkg pkg).loaded && commandForm c && form && done + k < n then
    .next (s2.updPkg pkg fun v => { v with copied := done + k })
  else onSluice s pkg c false form fun s1 _ =>
    reply ((s1.copyWord pkg c.w2.toNat (hostAddr pkg.toNat c.w3.toNat) n done).1.updPkg pkg fun v => { v with copied := 0 }) 0 0

/-- I3C_WINDOW_READ (R294): the word goes to the sideband, and nothing else changes. -/
def execI3cWindowRead (pkg : Pkg) (addr : BitVec 48) (s : State) : Host.Outcome State Fault Refusal :=
  let (s1, w) := s.readWindow pkg (addr.toNat / 8 * 8)
  .next (s1.updPkg pkg fun k => { k with i3cData := w })

end Sys2Proof.Machine
end

