-- ==== Sys2Proof/Machine/Restore.lean ====
section
/-! DEFINITION. The runtime's commands for checkpoints: snapshot requests, the parity build, and the restore (R272 to R276,
R286). What the spec does not lay out, where a parity row lies and which packages a group has, is the model's (log 33). -/

namespace Sys2Proof.Machine

/-! ### Requests -/

/-- A checkpoint region in the form of R286: die, and bits [51:16] of its address within the die's LPDDR-6. -/
def regionOk (w : Word) : Bool := fld w 15 12 = 0 && fld w 63 52 = 0 && regionOff w < tierBytes true

/-- Layout, group size and member of a shard (R274): 1 native, 2 buddy. -/
def layoutOk (layout gsize : Nat) : Bool := (layout = 1 && 2 ≤ gsize && gsize ≤ 16) || (layout = 2 && gsize = 2)

/-- SNAP (R272 to R274): it completes when it is latched (R288). -/
def execSnap (pkg : Pkg) (c : Command) (s : State) : Host.Outcome State Fault Refusal :=
  let q : SnapReq := ⟨c.w2, c.w3⟩
  onRankNow s pkg c (regionOk c.w2 && c.w3.toNat < 2 ^ 24 && layoutOk q.layoutOf q.gsize && q.member < q.gsize)
    fun s1 key _ =>
      if !s1.reach (sluiceDie pkg) (regionDie c.w2) 0 then (s1, 0xF2)
      else (s1.updRank key fun r => { r with snapReq := some q }, 0)

/-! ### Parity -/

/-- The address of a shard's bytes. -/
def Shard.addr (h : Shard) : Nat := lpddrAddr h.die.toNat h.base

/-- The shards of a step in a list, in ascending order of virtual rank, as units one after another: a package's data (R275). -/
def State.dataOf (s : State) (step : BitVec 48) (l : List Shard) : List (BitVec 524288) :=
  (sortBy (fun (h : Shard) => h.vrank.toNat) (l.filter fun h => h.step = step)).flatMap fun h => s.units h.addr h.units

/-- The native shards that the packages have sealed for a job's step (R274). -/
def State.sealedFor (s : State) (job : BitVec 32) (step : BitVec 48) : List (Pkg × Shard) :=
  s.pkgs.flatMap fun e =>
    (e.2.shards.filter fun h => h.job = job && h.step = step && h.layout = 1).map fun h => (BitVec.ofNat 10 e.1, h)

/-- Position `m` of parity group `n`: the packages that have sealed a shard as MEMBER m, in ascending order, belong to groups 0, 1
and so on (log 33). -/
def memberOf (l : List (Pkg × Shard)) (n m : Nat) : Option Pkg :=
  (((l.filter fun e => e.2.member = m).map (·.1)).eraseDups)[n]?

/-- The unit that position `j` of `g` contributes to a row whose holder is another: the number of rows before it that `j`
does not hold (R275). -/
def unitOf (g j q : Nat) : Nat := q - (q + g - 1 - j) / g

/-- The row of unit `t` of position `j`. -/
def rowOf (g j t : Nat) : Nat := t / (g - 1) * g + if t % (g - 1) < j then t % (g - 1) else t % (g - 1) + 1

/-- Rows until the data of every position has been contributed. -/
def rowCount (g : Nat) (data : List (List (BitVec 524288))) : Nat :=
  data.zipIdx.foldl (fun a e => if e.1.isEmpty then a else max a (rowOf g e.2 (e.1.length - 1) + 1)) 0

/-- The XOR of the units that the positions other than the row's holder, and other than those in `but`, contribute. -/
def rowXor (g q : Nat) (data : List (List (BitVec 524288))) (but : Option Nat) : BitVec 524288 :=
  data.zipIdx.foldl (fun a e =>
    if e.2 = q % g || but = some e.2 then a else a ^^^ (e.1.getD (unitOf g e.2 q) 0)) 0

/-- Stores a row at its holder. -/
def State.putRow (s : State) (p : Pkg) (v : ParityRow) : State :=
  s.updPkg p fun k => { k with parity :=
    (k.parity.filter fun x => !(x.job = v.job && x.group = v.group && x.step = v.step && x.row = v.row)) ++ [v] }

/-- PARITY (R275): the rank of W1 is looked up and its home die must be reached, though R275 names a step and a group only (log 120); the
group that W3 names, of the size that its shards give. A build that is ordered before every position of the
group has sealed a shard changes nothing. It waits while requests of the Sluice's die are held (R257). -/
def execParity (pkg : Pkg) (c : Command) (s : State) : Host.Outcome State Fault Refusal :=
  onRank s pkg c (c.w2.toNat < 2 ^ 48 && c.w3.toNat < 2 ^ 10) fun s1 _ _ r =>
    let step : BitVec 48 := c.w2.setWidth 48
    let all := s1.sealedFor r.job step
    let g := (all.map fun e => e.2.gsize).foldl max 0
    let members := (List.range g).filterMap (memberOf all c.w3.toNat)
    if s1.dieHeld (sluiceDie pkg) then .error s1
    else if g = 0 || members.length ≠ g then reply s1 0xF3 0
    else if members.any fun p => !s1.reach (sluiceDie pkg) (sluiceDie p) 0 then reply s1 0xF2 0
    else
      let data := members.map fun p => s1.dataOf step ((all.filter fun e => e.1 = p).map (·.2))
      reply ((List.range (rowCount g data)).foldl (fun (acc : State) q =>
        acc.putRow (members.getD (q % g) 0) ⟨r.job, members, step, q, rowXor g q data none⟩) s1) 0 0

/-! ### Restore: the list and the shards -/

/-- The package list of RESTORE breaks R286. -/
def listBad (w0 : Word) (entries : List Word) : Bool :=
  fld w0 15 11 ≠ 0 || fld w0 63 32 ≠ 0 || fld w0 10 0 = 0 || fld w0 10 0 > 1024 ||
  !layoutOk (fld w0 23 16) (fld w0 31 24) || !entries.all regionOk

/-- What the header at a place says of a shard there (R274). -/
def State.headerAt (s : State) (d : DieKey) (off : Nat) : Shard :=
  let h := s.rd (lpddrAddr d.toNat off) 64
  let f := fun (hi lo : Nat) => h / 2 ^ lo % 2 ^ (hi + 1 - lo)
  ⟨d, off, BitVec.ofNat 32 (f 31 0), BitVec.ofNat 16 (f 95 80), BitVec.ofNat 48 (f 79 32), f 103 96, f 111 104, f 119 112, f 151 120⟩

/-- A shard of a job is present at a place (R274): JOB matches, LAYOUT is the one in use, and the CRC checks. -/
def State.presentAt (s : State) (job : BitVec 32) (layout : Nat) (h : Shard) : Bool :=
  h.job = job && h.layout = layout && 1 ≤ h.units && h.base + 65536 * h.units ≤ tierBytes true &&
  s.rd h.addr 60 = h.header && s.rd (h.addr + 60) 4 = shardCrc (s.units h.addr h.units)

/-- The shards of a job that are present in the region that an entry names: from its start on, at any 64 KiB unit. -/
def State.regionShards (s : State) (job : BitVec 32) (layout : Nat) (entry : Word) : List Shard :=
  let d := regionDie entry
  let low := lpddrAddr d.toNat (regionOff entry)
  let units := ((s.mem.filter fun e => low ≤ e.1 && e.1 < lpddrAddr d.toNat 0 + tierBytes true).map fun e =>
    (e.1 - lpddrAddr d.toNat 0) / 65536).eraseDups
  (units.map fun n => s.headerAt d (65536 * n)).filter (s.presentAt job layout)

/-- The header's fields in the first unit of a shard: job, step, virtual rank, units. -/
def headOf (u : BitVec 524288) : BitVec 32 × BitVec 48 × BitVec 16 × Nat :=
  (u.extractLsb' 0 32, u.extractLsb' 32 48, u.extractLsb' 80 16, (u.extractLsb' 120 32).toNat)

/-- Cuts rebuilt data into shards of a step whose CRC checks, by virtual rank. -/
def cutShards (job : BitVec 32) (step : BitVec 48) (layout : Nat) : Nat → List (BitVec 524288) → Tab (List (BitVec 524288))
  | 0, _ => []
  | _, [] => []
  | fuel + 1, u :: rest =>
    let (j, st, vrank, n) := headOf u
    let shard := (u :: rest).take n
    if j ≠ job || st ≠ step || n = 0 || shard.length ≠ n || (u.extractLsb' 96 8).toNat ≠ layout ||
      (u.extractLsb' 480 32).toNat ≠ shardCrc shard then []
    else (vrank.toNat, shard) :: cutShards job step layout fuel ((u :: rest).drop n)

/-- Two lists of a group's packages have the same package at every position but `j`. -/
def sameBut (j : Nat) (a b : List Pkg) : Bool :=
  a.length = b.length && (List.range a.length).all fun i => i = j || a[i]? = b[i]?

/-- A parity row of a job's step at a package, of the group that a list gives. Position `j`, which is to be rebuilt, need not be the
package that sealed its data: after a lasting loss the runtime names another in its place (R276). -/
def State.parityRow (s : State) (p : Pkg) (job : BitVec 32) (group : List Pkg) (step : BitVec 48) (j q : Nat) :
    Option (BitVec 524288) :=
  ((s.pkg p).parity.find? fun v => v.job = job && sameBut j v.group group && v.step = step && v.row = q).map (·.unit)

/-- The units of position `j` of a group from the others' data and the parity rows, as far as there are rows (R275). -/
def State.rebuild (s : State) (members : List Pkg) (job : BitVec 32) (step : BitVec 48) (j : Nat)
    (data : List (List (BitVec 524288))) : Nat → Nat → List (BitVec 524288)
  | 0, _ => []
  | fuel + 1, t =>
    let g := members.length
    let q := rowOf g j t
    match s.parityRow (members.getD (q % g) 0) job members step j q with
    | none => []
    | some v => (v ^^^ rowXor g q data (some j)) :: s.rebuild members job step j data fuel (t + 1)

/-- Splits the list into groups of G, entry k being member k mod G of group k div G (R286). -/
def parityGroups {α : Type} (g : Nat) (l : List α) : List (List α) :=
  (List.range (ceilDiv l.length g)).map fun i => (l.drop (i * g)).take g

/-- What an entry of the list names, and the shards that are present there. -/
structure Named where
  pkg : Pkg
  shards : List Shard
  deriving DecidableEq, Repr

/-- The shards of a step that the parity rows of a group give back (R275). -/
def State.rebuilt (s : State) (g : Nat) (job : BitVec 32) (step : BitVec 48) (group : List Named) :
    List (Nat × List (BitVec 524288)) :=
  let members := group.map (·.pkg)
  let data := group.map fun e => s.dataOf step e.shards
  let rows := (members.map fun p => (s.pkg p).parity.length).foldl (· + ·) 0
  if group.length ≠ g then []
  else (List.range g).flatMap fun j => cutShards job step 1 (rows + 1) (s.rebuild members job step j data rows 0)

/-- Every shard of a step that is present in the named regions or can be rebuilt, by virtual rank; the present ones first. -/
def State.shardsOf (s : State) (named : List Named) (layout g : Nat) (job : BitVec 32) (step : BitVec 48) :
    List (Nat × List (BitVec 524288)) :=
  (named.flatMap fun e => (e.shards.filter fun h => h.step = step).map fun h => (h.vrank.toNat, s.units h.addr h.units)) ++
  (if layout = 1 then (parityGroups g named).flatMap (s.rebuilt g job step) else [])

/-- The steps of a job of which the named packages hold a shard or a parity row, the largest first. -/
def State.stepsOf (s : State) (named : List Named) (job : BitVec 32) : List (BitVec 48) :=
  let all := named.flatMap fun e =>
    e.shards.map (·.step) ++ ((s.pkg e.pkg).parity.filter fun v => v.job = job).map (·.step)
  (all.mergeSort fun a b => b ≤ a).eraseDups

/-! ### Restore: a rank's state and pages -/

/-- Words of a shard from byte 64 on. -/
def bodyWord (shard : List (BitVec 524288)) (i : Nat) : Word :=
  ((shard.getD ((i + 8) / 8192) 0).extractLsb' (64 * ((i + 8) % 8192)) 64)

/-- A work queue read from words, and the words after it. -/
def readQueue (l : List Word) : List QueueEntry × List Word :=
  let n := (pick l 0).toNat
  ((List.range n).map fun i =>
    let flags := pick l (2 * i + 2)
    ⟨pick l (2 * i + 1), bit flags 0, bit flags 1⟩, l.drop (2 * n + 1))

/-- Several queues one after another, and the words after them. -/
def readQueues : Nat → List Word → List (List QueueEntry) × List Word
  | 0, l => ([], l)
  | n + 1, l =>
    let (q, rest) := readQueue l
    let (qs, last) := readQueues n rest
    (q :: qs, last)

/-- A table of words with its length before it, and the words after it. -/
def readTab (l : List Word) : List (Nat × Word) × List Word :=
  let n := (pick l 0).toNat
  ((List.range n).map fun i => ((pick l (2 * i + 1)).toNat, pick l (2 * i + 2)), l.drop (2 * n + 1))

/-- An event queue, and the words after it. -/
def readEvents (l : List Word) : List Event × List Word :=
  let n := (pick l 0).toNat
  ((List.range n).map fun i =>
    let v := fun k => pick l (1 + 4 * i + k)
    ⟨v 1 ++ v 0, v 2, (v 3).setWidth 48⟩, l.drop (4 * n + 1))

/-- A communicator table. -/
def readComms (l : List Word) : Tab Comm :=
  (List.range (pick l 0).toNat).foldl (fun t i =>
    let v := fun k => pick l (1 + 5 * i + k)
    tabPut t (v 0).toNat ⟨v 1, v 2, (v 3).setWidth 48, (v 3).extractLsb' 48 16, (v 4).setWidth 32⟩) []

/-- A class that a latch may hold, from its word. -/
def readLatch (w : Nat) : Option (BitVec 2) := if w / 4 % 2 = 1 then some (BitVec.ofNat 2 w) else none

/-- The rank state of R72 from a shard, in the order of `Rank.words`. A class that the boundary had taken when the snapshot opened
takes effect (R36, order 5); a latched migration stands in `migrate`, and its pre-copy is still to start. A sweep of an earlier
step that was still running is not taken up again (R136, log 45). -/
def Rank.readWords (r : Rank) (l : List Word) : Rank :=
  let w := pick l
  let (decay, l1) := readTab (l.drop 21)
  let (events, l2) := readEvents l1
  let (queues, l3) := readQueues 4 (l2.drop 2)
  let l4 := l3.drop 32
  let (counters, l5) := readTab (l4.drop 4)
  { r with
    gstep := (w 0).setWidth 48
    cls := (readLatch ((w 2).toNat / 16)).getD ((w 1).setWidth 2)
    pend := readLatch ((w 2).toNat % 16)
    rseed := w 3
    pseed := w 4
    srbase := Vector.ofFn fun (i : Fin 8) => w (5 + i.val)
    srlen := Vector.ofFn fun (i : Fin 8) => w (13 + i.val)
    decay := decay.foldl (fun t e => tabSet t 0 e.1 (e.2.setWidth 48)) []
    evq := events
    evOvf := bit (pick l2 0) 0
    evSeq := pick l2 1
    queues := Vector.ofFn fun (i : Fin 4) => queues.getD i.val []
    migrate := if bit (pick l4 0) 63 then some ((pick l4 0).setWidth 12) else none
    snapReq := if pick l4 1 = 1 then some ⟨pick l4 2, pick l4 3⟩ else none
    counters := counters.foldl (fun t e => tabSet t 0 e.1 (e.2.setWidth 32)) []
    comms := readComms l5
    snap := none
    precopy := none
    sweeps := [] }

/-- The pages of a shard: page number, its unit's bytes if it is not absent, and its leaf. -/
def shardPages (shard : List (BitVec 524288)) : List (Nat × BitVec 524288 × Word) :=
  (List.range (bodyWord shard 0).toNat).filterMap fun i =>
    let w := bodyWord shard (1 + 2 * i)
    if bit w 63 then none
    else some (fld w 35 0, shard.getD (fld w 62 36) 0, bodyWord shard (2 + 2 * i))

/-- The words of the rank state in a shard. -/
def shardState (shard : List (BitVec 524288)) : List Word :=
  let at_ := 1 + 2 * (bodyWord shard 0).toNat
  (List.range (bodyWord shard at_).toNat).map fun i => bodyWord shard (at_ + 1 + i)

/-- Writes the pages of a shard into frames of the home die's pools, of the tier that the leaf named, or of HBM4E. -/
def State.putPages (s : State) (d : DieKey) (root : Word) : List (Nat × BitVec 524288 × Word) → Option State
  | [] => some s
  | (page, bytes, leaf) :: rest =>
    let lp := leafTier leaf = 1
    match (s.die d).takeFrames lp 1 with
    | none => none
    | some (f, v) =>
      let new := (setLeaf leaf (b2n lp) (leafMode leaf) 0 f (leafRset leaf) ||| 1) &&& ~~~(6 : Word)
      let a := tierAddr lp d.toNat (f * 65536)
      match (((s.setDie d v).zero a 65536).wr a 65536 bytes.toNat).mapLeaf d root (page * 65536) 0 new with
      | none => none
      | some s1 => s1.putPages d root rest

/-- The migration that was latched when the snapshot opened is latched again, and its pre-copy starts (R37, R268). -/
def State.relatch (s : State) (key : Nat) : State :=
  match (s.rank? key).bind (·.migrate) with
  | none => s
  | some d => s.latchMove key d

/-- Restores one rank at its home (R276); a pre-copy of its former memory is abandoned, and the sweep of the step starts again
(R136). -/
def State.restoreRank (s : State) (key : Nat) (r : Rank) (shard : List (BitVec 524288)) : Option State :=
  let s0 := match r.precopy with
    | none => s
    | some p => s.giveBack p
  match s0.newSpace r.home r.job r.vrank.toNat with
  | none => none
  | some (s1, root) => (s1.putPages r.home root (shardPages shard)).map fun x =>
      ((x.setRank key (r.readWords (shardState shard))).startSweep key).relatch key

/-- Restores every rank in turn. -/
def State.restoreAll (s : State) : List (Nat × Rank × List (BitVec 524288)) → Option State
  | [] => some s
  | (key, r, shard) :: rest => match s.restoreRank key r shard with
    | none => none
    | some s1 => s1.restoreAll rest

/-- The shard of each rank, if there is one for every rank. -/
def pickShards (l : List (Nat × List (BitVec 524288))) : List (Nat × Rank) → Option (List (Nat × Rank × List (BitVec 524288)))
  | [] => some []
  | (key, r) :: rest => match l.find? fun e => e.1 = r.vrank.toNat with
    | none => none
    | some e => (pickShards l rest).map fun x => (key, r, e.2) :: x

/-- Every shard of a step is there: one for each virtual rank of the job (R78, R276). -/
def shardsWhole (l : List (Nat × List (BitVec 524288))) (nrankm1 : Nat) : Bool :=
  (List.range (nrankm1 + 1)).all fun v => l.any fun e => e.1 = v

/-- RESTORE (R276, R286): the rank of W1 is looked up and its home die must be reached, though R286 names the command's JOB only
(log 120); the largest step of which every shard is present or can be rebuilt; the job's ranks that exist are
restored. It waits while requests of the Sluice's die are held (R257). -/
def execRestore (pkg : Pkg) (c : Command) (s : State) : Host.Outcome State Fault Refusal :=
  onRank s pkg c (c.w2.toNat % 8 = 0 && hostRun c.w2 8) fun s1 _ _ r =>
    let w0 := s1.hostWord pkg c.w2 0
    let n := fld w0 10 0
    let entries := (List.range n).map fun k => s1.hostWord pkg c.w2 (k + 1)
    let layout := fld w0 23 16
    let g := fld w0 31 24
    if s1.dieHeld (sluiceDie pkg) then .error s1
    else if listBad w0 entries || !hostRun c.w2 (8 * n + 8) then reply s1 0xF0 0
    else if entries.any fun w => !s1.reach (sluiceDie pkg) (regionDie w) 0 then reply s1 3 0
    else
      let ranks := s1.ranks.filter fun e => e.2.job = r.job
      let named := entries.map fun (w : Word) => (⟨pkgOf (regionDie w), s1.regionShards r.job layout w⟩ : Named)
      let whole := (s1.stepsOf named r.job).findSome? fun step =>
        let l := s1.shardsOf named layout g r.job step
        if shardsWhole l r.nrankm1.toNat then (pickShards l ranks).map fun x => (step, x) else none
      match whole with
      | none => reply s1 1 0
      | some (step, l) => match s1.restoreAll l with
        | none => reply s1 2 0
        | some s2 => reply s2 0 (wd step.toNat)

end Sys2Proof.Machine
end

