-- ==== Sys2Proof/Machine/Runtime.lean ====
section
/-! DEFINITION. The runtime's commands on banks and gangs: bank writes and resumption (R250, R251), which is the return from
a fault, and pre-emption (R229 to R231, R497). -/

namespace Sys2Proof.Machine

/-! ### Bank writes -/

/-- A command on a FAULTED bank of the command's rank (R284). -/
def onFaulted (s : State) (pkg : Pkg) (c : Command) (form : Bool)
    (body : State → Nat → Rank → Nat → Strand → State × BitVec 8) : Host.Outcome State Fault Refusal :=
  onRankNow s pkg c (c.w2.toNat < 2 ^ 20 && form) fun s1 key r =>
    match s1.onBank c.w2.toNat with
    | none => (s1, 0xF3)
    | some (u, m) => if m.rank ≠ key || m.state ≠ .faulted then (s1, 0xF3) else body s1 key r u m

/-- BANKW of a general register (R251). -/
def execBankwGreg (pkg : Pkg) (c : Command) (s : State) : Host.Outcome State Fault Refusal :=
  onFaulted s pkg c (c.w3.toNat < 4) fun s1 _ _ u m =>
    if c.w4.toNat > 63 then (s1, 1) else (s1.setStrand u (m.setReg (c.w4.setWidth 6) c.w5), 0)

/-- The user CSRs that a bank write reaches (R251). -/
def userCsr (n : Nat) : Bool :=
  n = 0x010 || n = 0x012 || n = 0x015 || n = 0x01E || (0x100 ≤ n && n < 0x180) || n = 0x202 || n = 0x204 || n = 0x205 ||
  n = 0x500 || n = 0x511

/-- After a bank write of ROT, the word at which the C stream stands comes after the write in text order. -/
def Strand.rotHere (m : Strand) : Strand :=
  { m with walk := m.walk.map fun w => if w.pos = m.c.pos then { w with rot := m.rrb } else w }

/-- BANKW of a user CSR (R251). TCFGn or TSTATn with n at or above TWIN.SIZE gives status 2, as a write on which CSR.W would fault (R81):
R251 can also be read as status 1, that of a tile number (log 111). -/
def execBankwCsr (pkg : Pkg) (c : Command) (s : State) : Host.Outcome State Fault Refusal :=
  onFaulted s pkg c (c.w3.toNat < 4) fun s1 _ r u m =>
    let n := c.w4.toNat
    if !userCsr n then (s1, 1)
    else match s1.csrWrite u m r m.rrb n c.w5 c.w5 with
      | .inl _ => (s1, 2)
      | .inr s2 => (if n = 0x012 then s2.upd u Strand.rotHere else s2, 0)

/-- BANKW of a tile (R251): 4 KiB from host memory to the tile that the strand names. -/
def execBankwTile (pkg : Pkg) (c : Command) (s : State) : Host.Outcome State Fault Refusal :=
  onFaulted s pkg c (c.w3.toNat < 4 && hostRun c.w5 4096) fun s1 _ _ _ m =>
    if c.w4.toNat > 63 then (s1, 1)
    else match m.slot m.rrb (c.w4.setWidth 6) with
      | none => (s1, 1)
      | some k =>
        let v := BitVec.ofNat 32768 (s1.rd (hostAddr pkg.toNat c.w5.toNat) 4096)
        ({ s1 with tiles := tabSet s1.tiles 0 (unitKey (locCore c.w2.toNat) (m.base + k)) v }, 0)

/-! ### Resumption -/

/-- The strand runs again: stopped and faulted commands, as many as the core has room for (R3), and stopped ASTs go on from their
progress (R244 to R247, R250). -/
def Strand.restart (m : Strand) (loc room : Nat) (clear : Bool) : Strand :=
  { m with
    state := .run
    cmds := wakeCmds (locCore loc) room m.cmds
    asts := m.asts.map fun a => { a with stopped := false }
    frame := if clear then vset m.frame 0 (vget m.frame 0 0 &&& ~~~(0x8000 : Word)) else m.frame }

/-- Resumption of a FAULTED bank, which is the return from a fault (R250): banks released under a stopped AST are DRAINING
again, as are those released under an AST that has still to issue (R247). -/
def State.resumeBank (s : State) (u : Nat) (m : Strand) (loc : Nat) (clear : Bool) : State :=
  let masks := (m.asts.filter (·.stopped)).map (·.freed) ++ m.early.map fun e => e.2
  (masks.foldl (fun (acc : State) v => acc.setDraining u (locCore loc) v true) s).setStrand u (m.restart loc (s.cmdRoom (locCore loc)) clear)

/-- RESUME, Retry (R250). -/
def execResumeRetry (pkg : Pkg) (c : Command) (s : State) : Host.Outcome State Fault Refusal :=
  onFaulted s pkg c (c.w3.toNat < 8) fun s1 _ _ u m => (s1.resumeBank u m c.w2.toNat (bit c.w3 2), 0)

/-- The stream of the recorded faulting word (R89). -/
def Strand.faultStream (m : Strand) : Stream :=
  match fld (vget m.frame 0 0) 9 8 with
  | 0 => .c
  | 1 => .l
  | 2 => .x
  | _ => .s

/-- A word that could not be read and has been skipped: every stream passes it as it passes a NOP (log 37). -/
def Strand.unreadWord (m : Strand) (t : Stream) : WalkWord :=
  { pos := (m.stream t).pos, addr := (m.stream t).pc, bits := t.tag ++ 0x38#6 ++ 0#24, rot := m.rrb, done := true }

/-- The recorded word is treated as retired with no effect (R250): a branch word is not taken, and one that stands in a delay
slot leaves the walk as the branch before it has set it. -/
def Strand.skipWord (m : Strand) (t : Stream) : Strand :=
  let m1 := m.dropProg (m.stream t).pos
  match m.wordAt (m.stream t).pos with
  | none => ({ m1 with walk := m1.walk ++ [m1.unreadWord t] } : Strand).retire t
  | some w => if recognise w.bits = .branch && (m1.stream t).delay = 0 then m1.resolve t false 0 else m1.retire t

/-- The AST that the frame records: a stopped one at the address of FPC_S. -/
def Strand.faultAst (m : Strand) : Option Ast := m.asts.find? fun a => a.stopped && a.pc = vget m.frame 0 5

/-- RESUME, Skip (R250): refused after ASYNC, TRAP and SYS. -/
def execResumeSkip (pkg : Pkg) (c : Command) (s : State) : Host.Outcome State Fault Refusal :=
  onFaulted s pkg c (c.w3.toNat < 8) fun s1 _ _ u m =>
    let cause := BitVec.ofNat 8 (fld (vget m.frame 0 0) 7 0)
    let t := m.faultStream
    let loc := c.w2.toNat
    let clear := bit c.w3 2
    if cause = cASYNC || cause = cTRAP || cause = cSYS then (s1, 0xF3)
    else match if t = .s then m.faultAst else none with
      | none =>
        let early := if t = .s then tabAt m.early 0 m.s.pos else 0
        let m1 : Strand := { m with early := if t = Stream.s then tabDel m.early m.s.pos else m.early }
        ((s1.resumeBank u (m1.skipWord t) loc clear).freeDrained u (locCore loc) early, 0)
      | some a =>
        let m1 := m.dropAst a.pos
        ((s1.resumeBank u m1 loc clear).freeDrained u (locCore loc) a.freed, 0)

/-- RESUME, End (R250): not accepted yet while the page of a frame that the end writes is held. -/
def execResumeEnd (pkg : Pkg) (c : Command) (s : State) : Host.Outcome State Fault Refusal :=
  onRank s pkg c (c.w2.toNat < 2 ^ 20 && c.w3.toNat < 8) fun s1 _ key _ =>
    match s1.onBank c.w2.toNat with
    | none => reply s1 0xF3 0
    | some (u, m) =>
      if m.rank ≠ key || m.state ≠ .faulted then reply s1 0xF3 0
      else (s1.killStrand u).bind fun s2 => reply s2 0 0

/-! ### Pre-emption -/

/-- A job of switch-outs joins a rank's, and those already done are followed up. -/
def State.addJob (s : State) (key : Nat) (gangs : List Nat) (follow : FollowUp) : State :=
  (s.updRank key fun r => { r with jobs := r.jobs ++ [⟨gangs, follow⟩] }).nextJobs key

/-- PREEMPT, gang form (R230, R497): the gang and every running gang of its nest with a higher ordinal. Of two
active nests with the same record address it names the one that was activated first, among those of which the ordinal runs (log 117). -/
def execPreemptGang (pkg : Pkg) (c : Command) (s : State) : Host.Outcome State Fault Refusal :=
  onRank s pkg c (c.w2 = 0) fun s1 ticket key _ =>
    let runs := fun (nid : Nat) => s1.gangs.any fun g => g.2.nest = nid && g.2.resident && g.2.ordinal = c.w4.toNat
    match (s1.nestsOf key).find? fun n => n.2.addr = c.w3 && runs n.1 with
    | none => reply s1 0xF3 0
    | some (nid, _) =>
      let gangs := s1.switchOrder fun _ g => g.nest = nid && c.w4.toNat ≤ g.ordinal
      .ok (s1.addJob key gangs (.preempt pkg.toNat ticket), none)

/-- The incoming partition of W4 (R497): job and virtual rank, and the logical partition. -/
def incoming (w4 : Word) : Option (Nat × Nat) :=
  if w4 = BitVec.allOnes 64 then none else some (fld w4 63 32 * 65536 + fld w4 15 0, fld w4 20 16)

/-- The incoming partition is switched out, and its rank is at home on the die of the cluster (R497). -/
def State.mayEnter (s : State) (key lp : Nat) (d : DieKey) : Bool :=
  match s.rank? key with
  | none => false
  | some q => lp < q.parts && (tabGet q.clusters lp).isNone && q.home = d

/-- PREEMPT, partition form (R229, R497): every gang of the partition, and with each the running gangs of its nest with a
higher ordinal. -/
def execPreemptPartition (pkg : Pkg) (c : Command) (s : State) : Host.Outcome State Fault Refusal :=
  onRank s pkg c (c.w2 = 1 && (c.w4 = BitVec.allOnes 64 || fld c.w4 31 21 = 0)) fun s1 ticket key r =>
    let p := c.w3.toNat
    if p ≥ r.parts then reply s1 0xF0 0
    else match tabGet r.clusters p with
      | none => reply s1 0xF3 0
      | some cluster =>
        let enter := incoming c.w4
        if enter.any fun e => !s1.mayEnter e.1 e.2 (locDie cluster) then reply s1 0xF3 0
        else
          let here := s1.gangs.filter fun g => g.2.rank = key && g.2.lp = p && g.2.resident
          let gangs := s1.switchOrder fun _ g => here.any fun h => h.2.nest = g.nest && h.2.ordinal ≤ g.ordinal
          let follow : FollowUp := .exchange p (enter.map (·.1)) ((enter.map (·.2)).getD 0) pkg.toNat ticket
          .ok (s1.addJob key gangs follow, none)

end Sys2Proof.Machine
end

