-- ==== Sys2Proof/Machine/Dispatch.lean ====
section
/-! DEFINITION. The one match over the instructions: each arm calls the meaning of its row. -/

namespace Sys2Proof.Machine

def exec (i : Instr) (s : State) : Host.Outcome State Fault Refusal :=
  match i with
  | .add d a b => Sys2Proof.Machine.execAdd d a b s
  | .sub d a b => Sys2Proof.Machine.execSub d a b s
  | .mul d a b => Sys2Proof.Machine.execMul d a b s
  | .mulh d a b => Sys2Proof.Machine.execMulh d a b s
  | .mulhu d a b => Sys2Proof.Machine.execMulhu d a b s
  | .div d a b => Sys2Proof.Machine.execDiv d a b s
  | .divu d a b => Sys2Proof.Machine.execDivu d a b s
  | .rem d a b => Sys2Proof.Machine.execRem d a b s
  | .remu d a b => Sys2Proof.Machine.execRemu d a b s
  | .and d a b => Sys2Proof.Machine.execAnd d a b s
  | .or d a b => Sys2Proof.Machine.execOr d a b s
  | .xor d a b => Sys2Proof.Machine.execXor d a b s
  | .shl d a b => Sys2Proof.Machine.execShl d a b s
  | .shr d a b => Sys2Proof.Machine.execShr d a b s
  | .sra d a b => Sys2Proof.Machine.execSra d a b s
  | .slt d a b => Sys2Proof.Machine.execSlt d a b s
  | .sltu d a b => Sys2Proof.Machine.execSltu d a b s
  | .min d a b => Sys2Proof.Machine.execMin d a b s
  | .max d a b => Sys2Proof.Machine.execMax d a b s
  | .minu d a b => Sys2Proof.Machine.execMinu d a b s
  | .maxu d a b => Sys2Proof.Machine.execMaxu d a b s
  | .sel d a b => Sys2Proof.Machine.execSel d a b s
  | .clz d a => Sys2Proof.Machine.execClz d a s
  | .popc d a => Sys2Proof.Machine.execPopc d a s
  | .shli d a b => Sys2Proof.Machine.execShli d a b s
  | .shri d a b => Sys2Proof.Machine.execShri d a b s
  | .srai d a b => Sys2Proof.Machine.execSrai d a b s
  | .addi d a imm => Sys2Proof.Machine.execAddi d a imm s
  | .andi d a imm => Sys2Proof.Machine.execAndi d a imm s
  | .ori d a imm => Sys2Proof.Machine.execOri d a imm s
  | .xori d a imm => Sys2Proof.Machine.execXori d a imm s
  | .slti d a imm => Sys2Proof.Machine.execSlti d a imm s
  | .bfx d a l p => Sys2Proof.Machine.execBfx d a l p s
  | .bfi d a l p => Sys2Proof.Machine.execBfi d a l p s
  | .li d imm => Sys2Proof.Machine.execLi d imm s
  | .lih imm => Sys2Proof.Machine.execLih imm s
  | .b o => Sys2Proof.Machine.execB o s
  | .call o => Sys2Proof.Machine.execCall o s
  | .jr a => Sys2Proof.Machine.execJr a s
  | .loop a o => Sys2Proof.Machine.execLoop a o s
  | .beq a b o => Sys2Proof.Machine.execBeq a b o s
  | .bne a b o => Sys2Proof.Machine.execBne a b o s
  | .blt a b o => Sys2Proof.Machine.execBlt a b o s
  | .bge a b o => Sys2Proof.Machine.execBge a b o s
  | .bltu a b o => Sys2Proof.Machine.execBltu a b o s
  | .bgeu a b o => Sys2Proof.Machine.execBgeu a b o s
  | .csrR d c => Sys2Proof.Machine.execCsrR d c s
  | .csrW d a c => Sys2Proof.Machine.execCsrW d a c s
  | .csrS d a c => Sys2Proof.Machine.execCsrS d a c s
  | .csrC d a c => Sys2Proof.Machine.execCsrC d a c s
  | .tcfg n a => Sys2Proof.Machine.execTcfg n a s
  | .rng d a b => Sys2Proof.Machine.execRng d a b s
  | .rngRs d a b => Sys2Proof.Machine.execRngRs d a b s
  | .trap c => Sys2Proof.Machine.execTrap c s
  | .sys c => Sys2Proof.Machine.execSys c s
  | .enq d q n => Sys2Proof.Machine.execEnq d q n s
  | .lds d a sz o => Sys2Proof.Machine.execLds d a sz o s
  | .sts d a sz o => Sys2Proof.Machine.execSts d a sz o s
  | .ldg d a sz o => Sys2Proof.Machine.execLdg d a sz o s
  | .stg d a sz o => Sys2Proof.Machine.execStg d a sz o s
  | .ldgAcq d a o => Sys2Proof.Machine.execLdgAcq d a o s
  | .stgRel d a o => Sys2Proof.Machine.execStgRel d a o s
  | .ldfK d a sz o => Sys2Proof.Machine.execLdfK d a sz o s
  | .ldfC d a sz o => Sys2Proof.Machine.execLdfC d a sz o s
  | .waitfK p q => Sys2Proof.Machine.execWaitfK p q s
  | .waitfC p q => Sys2Proof.Machine.execWaitfC p q s
  | .amo d a b u w o => Sys2Proof.Machine.execAmo d a b u w o s
  | .cas d a b w => Sys2Proof.Machine.execCas d a b w s
  | .acq p => Sys2Proof.Machine.execAcq p s
  | .acqSh p => Sys2Proof.Machine.execAcqSh p s
  | .rel p => Sys2Proof.Machine.execRel p s
  | .bind p q r e => Sys2Proof.Machine.execBind p q r e s
  | .lend d q => Sys2Proof.Machine.execLend d q s
  | .reclaim d q => Sys2Proof.Machine.execReclaim d q s
  | .tlbi p => Sys2Proof.Machine.execTlbi p s
  | .tlbiSp p => Sys2Proof.Machine.execTlbiSp p s
  | .pgsplit d a => Sys2Proof.Machine.execPgsplit d a s
  | .pgcoll d a b => Sys2Proof.Machine.execPgcoll d a b s
  | .pgmig d a b => Sys2Proof.Machine.execPgmig d a b s
  | .pageProcedureDone loc => Sys2Proof.Machine.execPageProcedureDone loc s
  | .nop t => Sys2Proof.Machine.execNop t s
  | .fence t f => Sys2Proof.Machine.execFence t f s
  | .sigk t k n => Sys2Proof.Machine.execSigk t k n s
  | .waitk t k n => Sys2Proof.Machine.execWaitk t k n s
  | .arinit t p q x => Sys2Proof.Machine.execArinit t p q x s
  | .arwait t p x h => Sys2Proof.Machine.execArwait t p x h s
  | .fset t p q x => Sys2Proof.Machine.execFset t p q x s
  | .fclr t p q x => Sys2Proof.Machine.execFclr t p q x s
  | .tld n b o => Sys2Proof.Machine.execTld n b o s
  | .tldt n b o => Sys2Proof.Machine.execTldt n b o s
  | .tldk n b o => Sys2Proof.Machine.execTldk n b o s
  | .cbld b o => Sys2Proof.Machine.execCbld b o s
  | .gather p q r x l => Sys2Proof.Machine.execGather p q r x l s
  | .gred p q r x l f o => Sys2Proof.Machine.execGred p q r x l f o s
  | .cpy sz p q r x => Sys2Proof.Machine.execCpy sz p q r x s
  | .cpyt sz p q r x => Sys2Proof.Machine.execCpyt sz p q r x s
  | .tmov sz p q x => Sys2Proof.Machine.execTmov sz p q x s
  | .vadd d a b r => Sys2Proof.Machine.execVadd d a b r s
  | .vsub d a b r => Sys2Proof.Machine.execVsub d a b r s
  | .vmul d a b r => Sys2Proof.Machine.execVmul d a b r s
  | .vfma d a b r => Sys2Proof.Machine.execVfma d a b r s
  | .vfms d a b r => Sys2Proof.Machine.execVfms d a b r s
  | .vfnma d a b r => Sys2Proof.Machine.execVfnma d a b r s
  | .vmin d a b u q => Sys2Proof.Machine.execVmin d a b u q s
  | .vmax d a b u q => Sys2Proof.Machine.execVmax d a b u q s
  | .vabs d a => Sys2Proof.Machine.execVabs d a s
  | .vneg d a => Sys2Proof.Machine.execVneg d a s
  | .vcmp d a b u c => Sys2Proof.Machine.execVcmp d a b u c s
  | .vsel d a b => Sys2Proof.Machine.execVsel d a b s
  | .vcvt d a r => Sys2Proof.Machine.execVcvt d a r s
  | .viadd d a b sz => Sys2Proof.Machine.execViadd d a b sz s
  | .visub d a b sz => Sys2Proof.Machine.execVisub d a b sz s
  | .vimul d a b sz => Sys2Proof.Machine.execVimul d a b sz s
  | .vand d a b => Sys2Proof.Machine.execVand d a b s
  | .vor d a b => Sys2Proof.Machine.execVor d a b s
  | .vxor d a b => Sys2Proof.Machine.execVxor d a b s
  | .vnot d a => Sys2Proof.Machine.execVnot d a s
  | .vshl d a b imm => Sys2Proof.Machine.execVshl d a b imm s
  | .vshr d a b imm => Sys2Proof.Machine.execVshr d a b imm s
  | .vsra d a b imm => Sys2Proof.Machine.execVsra d a b imm s
  | .vmov d a => Sys2Proof.Machine.execVmov d a s
  | .vmovG d a => Sys2Proof.Machine.execVmovG d a s
  | .vbcr d a c => Sys2Proof.Machine.execVbcr d a c s
  | .vbcc d a r => Sys2Proof.Machine.execVbcc d a r s
  | .vrotr d a sz => Sys2Proof.Machine.execVrotr d a sz s
  | .vrotc d a sz => Sys2Proof.Machine.execVrotc d a sz s
  | .vredr d a o r => Sys2Proof.Machine.execVredr d a o r s
  | .vredc d a o r => Sys2Proof.Machine.execVredc d a o r s
  | .vscanr d a x o r => Sys2Proof.Machine.execVscanr d a x o r s
  | .vscanc d a x o r => Sys2Proof.Machine.execVscanc d a x o r s
  | .viota d a => Sys2Proof.Machine.execViota d a s
  | .vrng d a b sz f => Sys2Proof.Machine.execVrng d a b sz f s
  | .vcor d a imm f => Sys2Proof.Machine.execVcor d a imm f s
  | .vdkadd d a b => Sys2Proof.Machine.execVdkadd d a b s
  | .vdkapp d a => Sys2Proof.Machine.execVdkapp d a s
  | .mpush a => Sys2Proof.Machine.execMpush a s
  | .mpushNew a => Sys2Proof.Machine.execMpushNew a s
  | .bmz o => Sys2Proof.Machine.execBmz o s
  | .mma d a b => Sys2Proof.Machine.execMma d a b s
  | .mmag p q r => Sys2Proof.Machine.execMmag p q r s
  | .aalloc d a => Sys2Proof.Machine.execAalloc d a s
  | .afree d a => Sys2Proof.Machine.execAfree d a s
  | .azero d a => Sys2Proof.Machine.execAzero d a s
  | .aadd d a => Sys2Proof.Machine.execAadd d a s
  | .adrain p q => Sys2Proof.Machine.execAdrain p q s
  | .tunpk d a r => Sys2Proof.Machine.execTunpk d a r s
  | .tst n b o => Sys2Proof.Machine.execTst n b o s
  | .tstk n b o => Sys2Proof.Machine.execTstk n b o s
  | .ast p q x => Sys2Proof.Machine.execAst p q x s
  | .scat p q r x l => Sys2Proof.Machine.execScat p q r x l s
  | .scata p q r x k l => Sys2Proof.Machine.execScata p q r x k l s
  | .upd p q r x f l => Sys2Proof.Machine.execUpd p q r x f l s
  | .car p q r x => Sys2Proof.Machine.execCar p q r x s
  | .crs p q r x => Sys2Proof.Machine.execCrs p q r x s
  | .cag p q r x => Sys2Proof.Machine.execCag p q r x s
  | .cbc p q r x => Sys2Proof.Machine.execCbc p q r x s
  | .waitkSatisfied loc st => Sys2Proof.Machine.execWaitkSatisfied loc st s
  | .sigkRoom loc st => Sys2Proof.Machine.execSigkRoom loc st s
  | .fullEmptyWaitDone loc st => Sys2Proof.Machine.execFullEmptyWaitDone loc st s
  | .arwaitDone loc st => Sys2Proof.Machine.execArwaitDone loc st s
  | .gbarEpisodeComplete gang => Sys2Proof.Machine.execGbarEpisodeComplete gang s
  | .matrixArrayGrant core => Sys2Proof.Machine.execMatrixArrayGrant core s
  | .leaseLapse loc => Sys2Proof.Machine.execLeaseLapse loc s
  | .exitRetire loc => Sys2Proof.Machine.execExitRetire loc s
  | .stepBoundary loc => Sys2Proof.Machine.execStepBoundary loc s
  | .bankUnpark loc => Sys2Proof.Machine.execBankUnpark loc s
  | .strandFaultStop loc => Sys2Proof.Machine.execStrandFaultStop loc s
  | .chunkArrive loc slot ahead => Sys2Proof.Machine.execChunkArrive loc slot ahead s
  | .chunkFault loc slot => Sys2Proof.Machine.execChunkFault loc slot s
  | .astFinish loc => Sys2Proof.Machine.execAstFinish loc s
  | .commandRelocate loc slot core => Sys2Proof.Machine.execCommandRelocate loc slot core s
  | .nestActivate rank => Sys2Proof.Machine.execNestActivate rank s
  | .gangDispatch rank lp => Sys2Proof.Machine.execGangDispatch rank lp s
  | .gangResume rank lp => Sys2Proof.Machine.execGangResume rank lp s
  | .gangSwitchOut rank => Sys2Proof.Machine.execGangSwitchOut rank s
  | .partitionExchangeDone rank => Sys2Proof.Machine.execPartitionExchangeDone rank s
  | .segmentBind loc addr => Sys2Proof.Machine.execSegmentBind loc addr s
  | .routeEntryLoad pkg dest entry => Sys2Proof.Machine.execRouteEntryLoad pkg dest entry s
  | .linkRetry die port => Sys2Proof.Machine.execLinkRetry die port s
  | .hwMigrationDone die => Sys2Proof.Machine.execHwMigrationDone die s
  | .pageDemoteDone die entry => Sys2Proof.Machine.execPageDemoteDone die entry s
  | .reclaimDeadline die entry => Sys2Proof.Machine.execReclaimDeadline die entry s
  | .packageLost pkg lost => Sys2Proof.Machine.execPackageLost pkg lost s
  | .precopyRound rank => Sys2Proof.Machine.execPrecopyRound rank s
  | .sweepPage rank => Sys2Proof.Machine.execSweepPage rank s
  | .snapshotPageCopy rank => Sys2Proof.Machine.execSnapshotPageCopy rank s
  | .correctedError die counter => Sys2Proof.Machine.execCorrectedError die counter s
  | .thermalTrip pkg => Sys2Proof.Machine.execThermalTrip pkg s
  | .limitEngage pkg thermal engaged die => Sys2Proof.Machine.execLimitEngage pkg thermal engaged die s
  | .startStepDone pkg cycles => Sys2Proof.Machine.execStartStepDone pkg cycles s
  | .startStepFail pkg code cycles => Sys2Proof.Machine.execStartStepFail pkg code cycles s
  | .startCold pkg => Sys2Proof.Machine.execStartCold pkg s
  | .startWarm pkg => Sys2Proof.Machine.execStartWarm pkg s
  | .stopCold pkg kind => Sys2Proof.Machine.execStopCold pkg kind s
  | .stopWarm pkg => Sys2Proof.Machine.execStopWarm pkg s
  | .sqtailDoorbell pkg value => Sys2Proof.Machine.execSqtailDoorbell pkg value s
  | .cqheadAdvance pkg value => Sys2Proof.Machine.execCqheadAdvance pkg value s
  | .hostRegisterWrite pkg off value => Sys2Proof.Machine.execHostRegisterWrite pkg off value s
  | .i3cWindowRead pkg addr => Sys2Proof.Machine.execI3cWindowRead pkg addr s
  | .i3cLimitWrite pkg sel value => Sys2Proof.Machine.execI3cLimitWrite pkg sel value s
  | .write pkg c => Sys2Proof.Machine.execWrite pkg c s
  | .copyin pkg c => Sys2Proof.Machine.execCopyin pkg c s
  | .read pkg c => Sys2Proof.Machine.execRead pkg c s
  | .copyout pkg c => Sys2Proof.Machine.execCopyout pkg c s
  | .signal pkg c => Sys2Proof.Machine.execSignal pkg c s
  | .launch pkg c => Sys2Proof.Machine.execLaunch pkg c s
  | .cntw pkg c => Sys2Proof.Machine.execCntw pkg c s
  | .csrw pkg c => Sys2Proof.Machine.execCsrw pkg c s
  | .tablewSpaceRoot pkg c => Sys2Proof.Machine.execTablewSpaceRoot pkg c s
  | .tablewReplicaSet pkg c => Sys2Proof.Machine.execTablewReplicaSet pkg c s
  | .tablewMthr pkg c => Sys2Proof.Machine.execTablewMthr pkg c s
  | .tablewFramePoolAdd pkg c => Sys2Proof.Machine.execTablewFramePoolAdd pkg c s
  | .tablewFramePoolRemove pkg c => Sys2Proof.Machine.execTablewFramePoolRemove pkg c s
  | .tablewTablePoolAdd pkg c => Sys2Proof.Machine.execTablewTablePoolAdd pkg c s
  | .tablewTablePoolRemove pkg c => Sys2Proof.Machine.execTablewTablePoolRemove pkg c s
  | .tablewCommunicator pkg c => Sys2Proof.Machine.execTablewCommunicator pkg c s
  | .tablewEndpoint pkg c => Sys2Proof.Machine.execTablewEndpoint pkg c s
  | .tablewSaveBases pkg c => Sys2Proof.Machine.execTablewSaveBases pkg c s
  | .sluiceLend pkg c => Sys2Proof.Machine.execSluiceLend pkg c s
  | .sluiceReclaim pkg c => Sys2Proof.Machine.execSluiceReclaim pkg c s
  | .migrate pkg c => Sys2Proof.Machine.execMigrate pkg c s
  | .preemptGang pkg c => Sys2Proof.Machine.execPreemptGang pkg c s
  | .preemptPartition pkg c => Sys2Proof.Machine.execPreemptPartition pkg c s
  | .bankwGreg pkg c => Sys2Proof.Machine.execBankwGreg pkg c s
  | .bankwCsr pkg c => Sys2Proof.Machine.execBankwCsr pkg c s
  | .bankwTile pkg c => Sys2Proof.Machine.execBankwTile pkg c s
  | .resumeRetry pkg c => Sys2Proof.Machine.execResumeRetry pkg c s
  | .resumeSkip pkg c => Sys2Proof.Machine.execResumeSkip pkg c s
  | .resumeEnd pkg c => Sys2Proof.Machine.execResumeEnd pkg c s
  | .evread pkg c => Sys2Proof.Machine.execEvread pkg c s
  | .snap pkg c => Sys2Proof.Machine.execSnap pkg c s
  | .parity pkg c => Sys2Proof.Machine.execParity pkg c s
  | .restore pkg c => Sys2Proof.Machine.execRestore pkg c s
  | .rankCreate pkg c => Sys2Proof.Machine.execRankCreate pkg c s
  | .rankEnd pkg c => Sys2Proof.Machine.execRankEnd pkg c s
  | .invalPage pkg c => Sys2Proof.Machine.execInvalPage pkg c s
  | .invalSpace pkg c => Sys2Proof.Machine.execInvalSpace pkg c s
  | .swread pkg c => Sys2Proof.Machine.execSwread pkg c s
  | .swcopy pkg c => Sys2Proof.Machine.execSwcopy pkg c s
  | .limitPlimit pkg c => Sys2Proof.Machine.execLimitPlimit pkg c s
  | .limitTlimit pkg c => Sys2Proof.Machine.execLimitTlimit pkg c s
  | .limitThreshold pkg c => Sys2Proof.Machine.execLimitThreshold pkg c s
  | .illegalWord w => Sys2Proof.Machine.execIllegalWord w s
  | .unknownOp pkg c => Sys2Proof.Machine.execUnknownOp pkg c s
  | .step => Sys2Proof.Machine.execStep s
  | .yield => Sys2Proof.Machine.execYield s
  | .exit => Sys2Proof.Machine.execExit s
  | .trig => Sys2Proof.Machine.execTrig s
  | .gbar => Sys2Proof.Machine.execGbar s
  | .minv => Sys2Proof.Machine.execMinv s
  | .mpop => Sys2Proof.Machine.execMpop s
  | .mlease => Sys2Proof.Machine.execMlease s
  | .mrel => Sys2Proof.Machine.execMrel s
  | .peerRequest => Sys2Proof.Machine.execPeerRequest s
  | .peerResponse => Sys2Proof.Machine.execPeerResponse s
  | .errorQueuePost => Sys2Proof.Machine.execErrorQueuePost s
  | .flitForward => Sys2Proof.Machine.execFlitForward s
  | .requestTimeout => Sys2Proof.Machine.execRequestTimeout s
  | .cellRequest => Sys2Proof.Machine.execCellRequest s
  | .cellRelease => Sys2Proof.Machine.execCellRelease s
  | .cellGrant => Sys2Proof.Machine.execCellGrant s
  | .lendRequest => Sys2Proof.Machine.execLendRequest s
  | .leaseOffer => Sys2Proof.Machine.execLeaseOffer s
  | .offerAnswer => Sys2Proof.Machine.execOfferAnswer s
  | .reclaimEvent => Sys2Proof.Machine.execReclaimEvent s
  | .returnMessage => Sys2Proof.Machine.execReturnMessage s
  | .fenceMessage => Sys2Proof.Machine.execFenceMessage s
  | .polderRequest => Sys2Proof.Machine.execPolderRequest s
  | .collectiveMessage => Sys2Proof.Machine.execCollectiveMessage s
  | .collectiveAbort => Sys2Proof.Machine.execCollectiveAbort s
  | .endpointUpdate => Sys2Proof.Machine.execEndpointUpdate s

end Sys2Proof.Machine
end

