-- ==== Sys2Proof/Machine/Turns.lean ====
section
/-! DEFINITION. Who moves (log 1): the turn of a stream, of an event's row, of a Sluice and of time; the turn that is taken
when none is listed; and the fabric in which one word is the next to run. -/

namespace Sys2Proof.Machine

/-! ### Turns -/

/-- Runs a stream's turn: what the stream does before the word, and then the word (R45). -/
def runStream (s : State) (u : Nat) (t : Stream) : Host.Outcome State Fault Refusal :=
  match { s with cur := some (u, t) }.prepare u t with
  | .settled s1 => .next s1
  | .run i s1 => exec i s1

/-- The Sluice takes the command at SQHEAD, if there is one and it accepts commands (R280 to R282). -/
def runSluice (s : State) (p : Pkg) : Host.Outcome State Fault Refusal :=
  let k := s.pkg p
  if k.accepts && k.sqhead ≠ k.sqtail then
    exec (decodeCommand p (tabAt k.ring zeroCommand k.sqhead.toNat)) s
  else .next s

/-- A lender-side entry whose deadline `n` cycles bring to its end (R196). -/
def Polder.expires (p : Polder) (n : Nat) : Bool := !p.borrower && p.state = 3 && p.dleft ≠ 0 && p.dleft.toNat ≤ n

/-- Requests that have reached a lender are served although a deadline passes now (R197). -/
def State.letInExpired (s : State) (n : Nat) : State :=
  s.dies.foldl (fun (acc : State) e => (e.2.polders.filter fun p => p.2.expires n).foldl (fun (a : State) p =>
    a.letIn (BitVec.ofNat 12 e.1) p.2) acc) s

/-- Time passes: the cycles of held leases (R56) and parked banks (R479) run down, requests grow older (R257), and so do the
reclaim deadlines of the lenders (R196). -/
def State.elapse (s0 : State) (n : Nat) : State :=
  let s := s0.letInExpired n
  { s with
    strands := s.strands.map fun e => (e.1, { e.2 with
      lease := match e.2.lease with
        | .held k c => .held k (c - n)
        | l => l
      state := match e.2.state with
        | .parked c => .parked (c - n)
        | b => b })
    msgs := s.msgs.map fun q => { q with age := q.age + n }
    dies := s.dies.map fun e => (e.1, { e.2 with polders := e.2.polders.map fun p =>
      if !p.2.borrower && p.2.state = 3 then (p.1, { p.2 with dleft := BitVec.ofNat 32 (p.2.dleft.toNat - n) }) else p }) }

/-- A reclaim's entry without the live pages that are no longer mapped as the reclaim event found them: one that is mapped anew is
another page (R193). -/
def State.dropUnmapped (s : State) (d : DieKey) (p : Polder) : Polder :=
  let left := p.todo.filter fun k => (s.stillLive d p k).isSome
  { p with todo := left, live := BitVec.ofNat 32 left.length }

/-- A page that software has unmapped is no live page any more (R192, R193), from the next turn on. -/
def State.settle (s : State) : State :=
  if s.dies.all fun e => e.2.polders.all fun p => p.2.todo.isEmpty then s else
    { s with dies := s.dies.map fun e => (e.1, { e.2 with polders := e.2.polders.map fun p =>
        (p.1, if p.2.todo.isEmpty then p.2 else s.dropUnmapped (BitVec.ofNat 12 e.1) p.2) }) }

/-- A turn is taken, in the state with the live pages of every reclaim as they are now. -/
def runTurn (t : Turn) (s0 : State) : Host.Outcome State Fault Refusal :=
  let s := s0.settle
  match t with
  | .stream loc t => match s.onBank loc.toNat with
    | none => .next s
    | some (u, _) => runStream s u t
  | .event i n => exec i { s with subject := n }
  | .sluice p => runSluice s p
  | .elapse n => .next (s.elapse n)

/-! ### The turn taken when none is listed -/

/-- The row that ends a stream's wait, where the wait alone tells which it is. -/
def Strand.rowFor (m : Strand) (loc : Nat) (t : Stream) : Option Instr :=
  let l : Loc := BitVec.ofNat 20 loc
  match (m.stream t).wait with
  | .token => some (.waitkSatisfied l t)
  | .room => some (.sigkRoom l t)
  | .fe => some (.fullEmptyWaitDone l t)
  | .arwait => some (.arwaitDone l t)
  | .gbar => some (.gbarEpisodeComplete m.gang)
  | .array => some (.matrixArrayGrant (BitVec.ofNat 18 loc))
  | .exit => some (.exitRetire l)
  | .step => some (.stepBoundary l)
  | .segment a => some (.segmentBind l a)
  | .none => none
  | .reply _ => none
  | .cell => none
  | .page => none
  | .lease => none

/-- A stream's place in the order of the default turn: the slowest first, and at a word its own stream first. -/
def Strand.rankOf (m : Strand) (t : Stream) : Nat :=
  2 * (m.stream t).pos + match m.wordAt (m.stream t).pos with
    | none => 0
    | some w => if tagOf w.bits = t then 0 else 1

/-- The turn taken when none is listed: of the strand that moved last, or else of the first resident strand, the slowest
stream that waits for nothing; if all wait, the row that ends a wait. -/
def State.nextTurn (s : State) : Option Turn :=
  let here := s.strands.filter fun e => e.2.place.isSome
  let mine := here.find? fun e => s.cur.any fun c => c.1 = e.1
  match mine.or here.head? with
  | none => none
  | some (_, m) =>
    let loc := m.place.getD 0
    let order := sortBy m.rankOf [Stream.c, .l, .x, .s]
    match order.find? fun t => (m.stream t).wait = .none with
    | some t => some (.stream (BitVec.ofNat 20 loc) t)
    | none => (order.findSome? fun t => m.rowFor loc t).map fun i => .event i 0

/-! ### One word as the next to run -/

/-- A package whose start has completed (R290, R292). -/
def Package.up : Package :=
  { Package.reset with state := .started, kind := 1, step := 9, attempt := 1, lastKind := 1
                       log := (natRange 1 9).map fun k => logEntry k 1 (if k = 9 then 0xFF else 0) false 0 }

/-- Where the word lies: private offset and HBM4E address alike. -/
def soloText : Nat := 0x100000

/-- The descriptor of a rank at home on die 0, with one partition (R285). -/
def soloDesc (i : Nat) : Word := if i = 0 then 0x1000 else 0

/-- The record of a nest of one strand with every tile and a whole LS region (R221). -/
def soloRecord : Vector Word 8 := #v[1, wd (0xE4 + 64 * 2 ^ 14 + 24 * 2 ^ 28 + 2 ^ 36), wd soloText, 0, 0, 0, 0, 0]

def soloNest : Nest :=
  { rank := 0, addr := 0, words := soloRecord, priv := true, launched := true, entry := wd soloText, cls := 0, parts := 1
    costs := none, loads := [1], round := 1, placed := 1, todo := [], dispatched := 1, triggered := 0, retired := 0
    trigDone := false }

def soloGang : Gang :=
  { rank := 0, nest := 0, ordinal := 0, lp := 0, cluster := 0, first := 0, cores := 1, spc := 1, resident := true
    live := [2], trigs := [], triggered := false, image := none, left := 0, saved := [] }

def soloRank : Rank := { Rank.new soloDesc 0 0 0 [] with clusters := [(0, 0)] }

/-- The page tables: the root's table at 0x10000, a level-2 table at 0x20000 whose first leaf maps 1 GiB to frame 0. -/
def soloTables (m : List Host.Cell) : List Host.Cell :=
  Memory.writeNat (Memory.writeNat m (hbmAddr 0 0x10000) 8 0x20001) (hbmAddr 0 0x20000) 16 5

def soloDie : Die := { Die.reset with spaces := [(0, ⟨0, 0, 0x10001⟩)] }

/-- The fabric with one package started and one privileged strand, at whose pc a word lies; the word's own stream is the next
to move. It stands for the load of a program from outside (log 36). -/
def State.solo (s : State) (w : IWord) : State :=
  { s with
    mem := Memory.writeNat (soloTables s.mem) (hbmAddr 0 soloText) 4 w.toNat
    pkgs := tabPut s.pkgs 0 Package.up
    dies := tabPut s.dies 0 soloDie
    ranks := tabPut s.ranks 0 soloRank
    nests := tabPut s.nests 0 soloNest
    gangs := tabPut s.gangs 1 soloGang
    strands := [(2, strandAt soloRank soloNest 1 0 0 0 0)]
    owner := tabPut s.owner 0 (0, 0)
    ids := max s.ids 3
    turns := [.stream 0 (tagOf w)] }

end Sys2Proof.Machine
end

