-- ==== Sys2Proof/Machine/Step.lean ====
section
/-! DEFINITION. One step: the turn at the head of the list moves; with none listed, the turn that the state itself gives. -/

namespace Sys2Proof.Machine

def step (s : State) : Host.Outcome State Fault Refusal :=
  match s.turns with
  | t :: rest => runTurn t { s with turns := rest }
  | [] => match s.nextTurn with
    | some t => runTurn t s
    | none => .next s

/-- The fabric with an instruction word as the next to run (log 36). -/
def State.withFetchWord (s : State) (_nbits w : Nat) : State := s.solo (BitVec.ofNat 32 w)

end Sys2Proof.Machine
end

