-- ==== Sys2Proof/Safety.lean ====
section
/-! DEFINITION. The terms that claims use: a step that goes on, memory in its canonical form, a strand that executes a word,
a command that the Sluice carries out, and a message whose turn has come. -/

namespace Sys2Proof

open Sys2Proof.Machine

/-- A step goes on: it answers a next state. -/
def Goes (s : State) : Prop := ∃ t, step s = .next t

/-- Memory is in its canonical form. -/
def MemOk (s : State) : Prop := Memory.wf s.mem = true

/-- Strand `u`, as `m`, is the strand whose word is executed: it is resident, in RUN, and no fault of it awaits its stop
(R236, R305). -/
def Ready (s : State) (u : Nat) (m : Strand) : Prop := s.cur.map (·.1) = some u ∧ s.strand u = some m ∧ m.canIssue = true

/-- As `Ready`, for a strand that is a client of the memory system as `c`. -/
def ReadyAs (s : State) (u : Nat) (m : Strand) (c : Client) : Prop := Ready s u m ∧ s.clientOf m = some c

/-- The Sluice of a package carries out command `c`: it accepts commands, the start has reached step 7, and no reserved bit of
W0 and W1 is set (R280, R283, R290). -/
def Accepted (s : State) (p : Pkg) (c : Command) : Prop :=
  (s.pkg p).accepts = true ∧ (s.pkg p).loaded = true ∧ commandForm c = true

/-- The state in which an accepted command is carried out. -/
def taken (s : State) (p : Pkg) (c : Command) : State := (s.accept p c).2

/-- The Sluice's requests to a die are not held after a change of route (R257), and the die is reached (R283, R288). -/
def sluiceReaches (s : State) (p : Pkg) (d : DieKey) : Bool :=
  !s.legHeld (sluiceDie p) (sluiceDie p) d && s.reach (sluiceDie p) d 0

/-- The rank that a command acts for exists, as `r`, and its home die is reached (R257, R283, R288). -/
def ForRank (s : State) (p : Pkg) (c : Command) (r : Rank) : Prop :=
  (taken s p c).rank? (commandKey c) = some r ∧ sluiceReaches (taken s p c) p r.home = true

/-- The rank that a command acts for exists, as `r`; the command goes to another die (R283, R288). -/
def ForAnyHome (s : State) (p : Pkg) (c : Command) (r : Rank) : Prop := (taken s p c).rank? (commandKey c) = some r

/-- The state in which a command is carried out for its rank. -/
def takenFor (s : State) (p : Pkg) (c : Command) (r : Rank) : State :=
  (taken s p c).setRank (commandKey c) { r with asleep := false }

/-- The rank as the command finds it. -/
def woken (r : Rank) : Rank := { r with asleep := false }

/-- The message that the step acts on has reached its die and its turn has come. -/
def Due (s : State) (q : Msg) : Prop := s.subjectMsg = some q

/-- What a strand's registers, flags and tables hold is the same in two states, but for its place in the walk and its general
registers. -/
def SameBeside (m n : Strand) : Prop :=
  n.tok = m.tok ∧ n.masks = m.masks ∧ n.lanes = m.lanes ∧ n.win = m.win ∧ n.base = m.base ∧ n.size = m.size ∧
  n.nrot = m.nrot ∧ n.rrb = m.rrb ∧ n.tcfg = m.tcfg ∧ n.tstat = m.tstat ∧ n.lease = m.lease ∧ n.rnd = m.rnd ∧
  n.ieee = m.ieee ∧ n.lfLane = m.lfLane ∧ n.lfAuto = m.lfAuto ∧ n.mEntry = m.mEntry ∧ n.mWord = m.mWord ∧
  n.feGroup = m.feGroup ∧ n.stepv = m.stepv ∧ n.bindA = m.bindA ∧ n.bindB = m.bindB ∧ n.dmap = m.dmap ∧
  n.cmds = m.cmds ∧ n.asts = m.asts ∧ n.prog = m.prog ∧ n.frame = m.frame ∧ n.noted = m.noted ∧ n.errq = m.errq ∧
  n.errOvf = m.errOvf ∧ n.trig = m.trig ∧ n.state = m.state ∧ n.place = m.place ∧ n.priv = m.priv ∧ n.rank = m.rank ∧
  n.gang = m.gang ∧ n.member = m.member ∧ n.acq = m.acq ∧ n.colls = m.colls ∧ n.saved = m.saved ∧
  n.early = m.early ∧ n.taker = m.taker

/-- Everything of the fabric but its strands is the same in two states. -/
def SameFabric (s t : State) : Prop :=
  t.mem = s.mem ∧ t.fe = s.fe ∧ t.gangs = s.gangs ∧ t.nests = s.nests ∧ t.ranks = s.ranks ∧ t.tiles = s.tiles ∧
  t.accs = s.accs ∧ t.accOwner = s.accOwner ∧ t.books = s.books ∧ t.array = s.array ∧ t.arrayLast = s.arrayLast ∧
  t.arrayReq = s.arrayReq ∧ t.lsSeg = s.lsSeg ∧ t.csSeg = s.csSeg ∧ t.owner = s.owner ∧ t.shadowTile = s.shadowTile ∧
  t.shadowAcc = s.shadowAcc ∧ t.dies = s.dies ∧ t.pkgs = s.pkgs ∧ t.msgs = s.msgs ∧ t.links = s.links ∧
  t.cur = s.cur ∧ t.subject = s.subject ∧ t.turns = s.turns ∧ t.ids = s.ids ∧ t.nfree = s.nfree

/-! ### Formats of words -/

/-- A word of the C stream in format RR (R298): major, d, a, b, fn. -/
def wordRR (major : BitVec 8) (d a b fn : Field) : IWord := major ++ d ++ a ++ b ++ fn

/-- A word of the C stream in format RI (R298). -/
def wordRI (major : BitVec 8) (d a : Field) (imm : BitVec 12) : IWord := major ++ d ++ a ++ imm

/-- A branch in format BR (R349). -/
def wordBR (major : BitVec 8) (a b : Field) (off : BitVec 12) : IWord := major ++ a ++ b ++ off

/-! ### The instructions of a kind -/

/-- The words barred from delay slots, with the stream that executes each (R52, R316). -/
inductive Barred : Instr → Stream → Prop where
  | b (x0) : Barred (.b x0) .c
  | call (x0) : Barred (.call x0) .c
  | jr (x0) : Barred (.jr x0) .c
  | loop (x0 x1) : Barred (.loop x0 x1) .c
  | beq (x0 x1 x2) : Barred (.beq x0 x1 x2) .c
  | bne (x0 x1 x2) : Barred (.bne x0 x1 x2) .c
  | blt (x0 x1 x2) : Barred (.blt x0 x1 x2) .c
  | bge (x0 x1 x2) : Barred (.bge x0 x1 x2) .c
  | bltu (x0 x1 x2) : Barred (.bltu x0 x1 x2) .c
  | bgeu (x0 x1 x2) : Barred (.bgeu x0 x1 x2) .c
  | bmz (x0) : Barred (.bmz x0) .x
  | trap (x0) : Barred (.trap x0) .c
  | sys (x0) : Barred (.sys x0) .c
  | enq (x0 x1 x2) : Barred (.enq x0 x1 x2) .c
  | step : Barred .step .c
  | exit : Barred .exit .c
  | waitk (t x1 x2) : Barred (.waitk t x1 x2) t

/-- The privileged words (R315): LEND, RECLAIM, TLBI, PGSPLIT, PGCOLL and PGMIG. -/
inductive Privileged : Instr → Prop where
  | lend (x0 x1) : Privileged (.lend x0 x1)
  | reclaim (x0 x1) : Privileged (.reclaim x0 x1)
  | tlbi (x0) : Privileged (.tlbi x0)
  | tlbiSp (x0) : Privileged (.tlbiSp x0)
  | pgsplit (x0 x1) : Privileged (.pgsplit x0 x1)
  | pgcoll (x0 x1 x2) : Privileged (.pgcoll x0 x1 x2)
  | pgmig (x0 x1 x2) : Privileged (.pgmig x0 x1 x2)

/-- The integer words of the C stream: the register that each writes and its new value, in exact integers narrowed to 64 bits
(R302, R333, R340, R350, R351, R363, R371, R394, R402, R404, R408, R412, R413, R420, R421, R424, R431, R477). `g` reads the
general registers and `seed` is RSEED[31:0]. -/
inductive IntResult (seed : BitVec 32) (g : Field → Word) : Instr → Field → Word → Prop where
  | add (d a b) : IntResult seed g (.add d a b) d (BitVec.ofNat 64 ((g a).toNat + (g b).toNat))
  | sub (d a b) : IntResult seed g (.sub d a b) d (BitVec.ofInt 64 ((g a).toInt - (g b).toInt))
  | mul (d a b) : IntResult seed g (.mul d a b) d (BitVec.ofInt 64 ((g a).toInt * (g b).toInt))
  | mulh (d a b) : IntResult seed g (.mulh d a b) d (BitVec.ofInt 64 ((g a).toInt * (g b).toInt / 2 ^ 64))
  | mulhu (d a b) : IntResult seed g (.mulhu d a b) d (BitVec.ofNat 64 ((g a).toNat * (g b).toNat / 2 ^ 64))
  | div (d a b) : IntResult seed g (.div d a b) d (if g b = 0 then -1 else BitVec.ofInt 64 ((g a).toInt.tdiv (g b).toInt))
  | divu (d a b) : IntResult seed g (.divu d a b) d (if g b = 0 then -1 else BitVec.ofNat 64 ((g a).toNat / (g b).toNat))
  | rem (d a b) : IntResult seed g (.rem d a b) d (if g b = 0 then g a else BitVec.ofInt 64 ((g a).toInt.tmod (g b).toInt))
  | remu (d a b) : IntResult seed g (.remu d a b) d (if g b = 0 then g a else BitVec.ofNat 64 ((g a).toNat % (g b).toNat))
  | and (d a b) : IntResult seed g (.and d a b) d (g a &&& g b)
  | or (d a b) : IntResult seed g (.or d a b) d (g a ||| g b)
  | xor (d a b) : IntResult seed g (.xor d a b) d (g a ^^^ g b)
  | shl (d a b) : IntResult seed g (.shl d a b) d (BitVec.ofNat 64 ((g a).toNat * 2 ^ ((g b).toNat % 64)))
  | shr (d a b) : IntResult seed g (.shr d a b) d (BitVec.ofNat 64 ((g a).toNat / 2 ^ ((g b).toNat % 64)))
  | sra (d a b) : IntResult seed g (.sra d a b) d (BitVec.ofInt 64 ((g a).toInt / 2 ^ ((g b).toNat % 64)))
  | slt (d a b) : IntResult seed g (.slt d a b) d (if (g a).toInt < (g b).toInt then 1 else 0)
  | sltu (d a b) : IntResult seed g (.sltu d a b) d (if (g a).toNat < (g b).toNat then 1 else 0)
  | min (d a b) : IntResult seed g (.min d a b) d (if (g a).toInt ≤ (g b).toInt then g a else g b)
  | max (d a b) : IntResult seed g (.max d a b) d (if (g a).toInt ≤ (g b).toInt then g b else g a)
  | minu (d a b) : IntResult seed g (.minu d a b) d (if (g a).toNat ≤ (g b).toNat then g a else g b)
  | maxu (d a b) : IntResult seed g (.maxu d a b) d (if (g a).toNat ≤ (g b).toNat then g b else g a)
  | sel (d a b) : IntResult seed g (.sel d a b) d (if g d = 0 then g b else g a)
  | clz (d a) : IntResult seed g (.clz d a) d (if g a = 0 then 64 else BitVec.ofNat 64 (63 - (g a).toNat.log2))
  | popc (d a) : IntResult seed g (.popc d a) d (BitVec.ofNat 64 ((List.range 64).countP fun i => (g a).getLsbD i))
  | shli (d a b) : IntResult seed g (.shli d a b) d (BitVec.ofNat 64 ((g a).toNat * 2 ^ b.toNat))
  | shri (d a b) : IntResult seed g (.shri d a b) d (BitVec.ofNat 64 ((g a).toNat / 2 ^ b.toNat))
  | srai (d a b) : IntResult seed g (.srai d a b) d (BitVec.ofInt 64 ((g a).toInt / 2 ^ b.toNat))
  | addi (d a i) : IntResult seed g (.addi d a i) d (BitVec.ofInt 64 ((g a).toInt + i.toInt))
  | andi (d a i) : IntResult seed g (.andi d a i) d (g a &&& BitVec.ofInt 64 i.toInt)
  | ori (d a i) : IntResult seed g (.ori d a i) d (g a ||| BitVec.ofInt 64 i.toInt)
  | xori (d a i) : IntResult seed g (.xori d a i) d (g a ^^^ BitVec.ofInt 64 i.toInt)
  | slti (d a i) : IntResult seed g (.slti d a i) d (if (g a).toInt < i.toInt then 1 else 0)
  | bfx (d a l p) : IntResult seed g (.bfx d a l p) d (BitVec.ofNat 64 ((g a).toNat / 2 ^ p.toNat % 2 ^ (l.toNat + 1)))
  | bfi (d a l p) : IntResult seed g (.bfi d a l p) d (BitVec.ofNat 64 ((g d).toNat / 2 ^ (p.toNat + l.toNat + 1) * 2 ^ (p.toNat + l.toNat + 1) +
      (g a).toNat % 2 ^ (l.toNat + 1) * 2 ^ p.toNat + (g d).toNat % 2 ^ p.toNat))
  | li (d i) : IntResult seed g (.li d i) d (BitVec.ofInt 64 i.toInt)
  | rng (d a b) : IntResult seed g (.rng d a b) d (BitVec.ofNat 64
      (cbg ((g a).extractLsb' 32 32) ((g a).extractLsb' 0 32) ((g b).extractLsb' 0 32)).toNat)
  | rngRs (d a b) : IntResult seed g (.rngRs d a b) d (BitVec.ofNat 64 (cbg seed ((g a).extractLsb' 0 32) ((g b).extractLsb' 0 32)).toNat)

/-- The integer words whose rules are those of division, of constants, of bit fields and of the counter-based draw (R302, R350,
R351, R371, R412, R413). -/
inductive OwnRule : Instr → Prop where
  | div (d a b) : OwnRule (.div d a b)
  | divu (d a b) : OwnRule (.divu d a b)
  | rem (d a b) : OwnRule (.rem d a b)
  | remu (d a b) : OwnRule (.remu d a b)
  | li (d i) : OwnRule (.li d i)
  | bfx (d a l p) : OwnRule (.bfx d a l p)
  | bfi (d a l p) : OwnRule (.bfi d a l p)
  | rng (d a b) : OwnRule (.rng d a b)
  | rngRs (d a b) : OwnRule (.rngRs d a b)

/-- RSEED[31:0] of a strand's rank (R84). -/
def seedOf (s : State) (m : Strand) : BitVec 32 := ((s.rank? m.rank).map fun r => BitVec.setWidth 32 r.rseed).getD 0

/-- The conditional branches of the C stream (R349): their offset, and whether they are taken. -/
inductive CondTaken (g : Field → Word) : Instr → BitVec 12 → Bool → Prop where
  | beq (a b o) : CondTaken g (.beq a b o) o (decide (g a = g b))
  | bne (a b o) : CondTaken g (.bne a b o) o (decide (g a ≠ g b))
  | blt (a b o) : CondTaken g (.blt a b o) o (decide ((g a).toInt < (g b).toInt))
  | bge (a b o) : CondTaken g (.bge a b o) o (decide ((g b).toInt ≤ (g a).toInt))
  | bltu (a b o) : CondTaken g (.bltu a b o) o (decide ((g a).toNat < (g b).toNat))
  | bgeu (a b o) : CondTaken g (.bgeu a b o) o (decide ((g b).toNat ≤ (g a).toNat))

/-! ### Control and status registers -/

/-- The CSR words (R369, R370): destination, register number, whether the word writes, the value written in terms of the old
one, and the operand whose ones clear W1C fields. -/
inductive CsrForm (m : Strand) : Instr → Field → BitVec 12 → Bool → (Word → Word) → Word → Prop where
  | r (d c) : CsrForm m (.csrR d c) d c false (fun v => v) 0
  | w (d a c) : CsrForm m (.csrW d a c) d c true (fun _ => m.reg a) (m.reg a)
  | s (d a c) : CsrForm m (.csrS d a c) d c (a ≠ 0) (fun v => v ||| m.reg a) (m.reg a)
  | c (d a c) : CsrForm m (.csrC d a c) d c (a ≠ 0) (fun v => v &&& ~~~m.reg a) 0

/-- What a writable CSR reads as after a write of `v`, from CSR.W (R48, R79 to R81, R84, R85, R87 to R90); a tile's register is one
of the window's 64 slots, and RRB is kept modulo NROT. -/
inductive CsrKeeps (m : Strand) (r : Rank) (rot : Field) : Nat → (Word → Word) → Prop where
  | rotation : CsrKeeps m r rot 0x012 (fun v => wd (m.nrot + (if m.nrot = 0 then 0 else fld v 13 8 % m.nrot) * 2 ^ 8))
  | budget : CsrKeeps m r rot 0x201 (fun v => wd (r.cls.toNat + v.toNat % 4 * 2 ^ 8 + 2 ^ 10))
  | lfdata : CsrKeeps m r rot 0x205 (fun v => if v.toNat % 2 ^ 32 = 0 then 1 else wd (v.toNat % 2 ^ 32))
  | fstat : CsrKeeps m r rot 0x500 (fun v => if bit v 15 then vget m.frame 0 0 &&& ~~~(0x8000 : Word) else vget m.frame 0 0)
  | eqstat : CsrKeeps m r rot 0x510 (fun v => wd (m.errq.length + if m.errOvf && !bit v 8 then 2 ^ 8 else 0))
  | eqack : CsrKeeps m r rot 0x511 (fun _ => 0)
  | win : CsrKeeps m r rot 0x010 (fun v => wd (min 1024 (max 16 (v.toNat % 2048))))
  | midx : CsrKeeps m r rot 0x015 (fun v => v &&& 0xF07)
  | feidx : CsrKeeps m r rot 0x01E (fun v => v &&& 0x7FF)
  | tcfg (n k : Nat) : n < 64 → m.slot rot (BitVec.ofNat 6 n) = some k → k < 64 → CsrKeeps m r rot (0x100 + n) (fun v => v &&& 0x0001FFFF03F7FF7F)
  | tstat (n k : Nat) : n < 64 → m.slot rot (BitVec.ofNat 6 n) = some k → k < 64 → CsrKeeps m r rot (0x140 + n) (fun v => v &&& 0x3FFFF)
  | rmode : CsrKeeps m r rot 0x202 (fun v => v &&& 0x17)
  | lfsel : CsrKeeps m r rot 0x204 (fun v => v &&& 0x83FF)
  | decay (k : Nat) : k < 256 → CsrKeeps m r rot (0x300 + k) (fun v => v &&& 0xFFFFFFFFFFFF)
  | dmap (d : Nat) : 1 ≤ d → d ≤ 29 → CsrKeeps m r rot (0x480 + d) (fun v => v &&& 0x8000000000000FFF)
  | srbase (i : Nat) : i < 8 → CsrKeeps m r rot (0x610 + 2 * i) (fun v => v &&& 0x01FFFFFFFFFF0001)
  | srlen (i : Nat) : i < 8 → CsrKeeps m r rot (0x611 + 2 * i) (fun v => v &&& 0xFFFFFFFF)

/-- The CSRs with a field that a write may change (R77, R79, R81, R84, R85, R87 to R90); DMAP0, DMAP30 and DMAP31 have none. -/
def csrWritable (n : Nat) : Bool :=
  [0x010, 0x012, 0x015, 0x01E, 0x201, 0x202, 0x204, 0x205, 0x500, 0x510, 0x511].contains n || (0x100 ≤ n && n < 0x180) ||
  (0x300 ≤ n && n < 0x400) || (0x481 ≤ n && n ≤ 0x49D) || (0x610 ≤ n && n ≤ 0x61F)

/-! ### Words that change their strand alone -/

/-- The words that change nothing beside their strand, under the conditions on which each completes, with the strand
afterwards (R396, R403, R423, R433, R476, R212). -/
inductive StrandWord (s : State) (u : Nat) (m : Strand) : Instr → Strand → Prop where
  | nop (t) : StrandWord s u m (.nop t) (m.retire t)
  | fence (t f) : s.quiet u m t = true → StrandWord s u m (.fence t f) (m.retire t)
  | tcfg (n a k) : m.slot (m.rotAt .c) n = some k → cfgOk (cfgMask (m.reg a)) = true →
      StrandWord s u m (.tcfg n a) (Strand.retire { m with tcfg := vset m.tcfg k (cfgMask (m.reg a)) } .c)
  | sigk (t k n) : m.streamQuiet t = true → (m.token k).toNat + n.toNat < 2 ^ 16 →
      StrandWord s u m (.sigk t k n) ((m.setToken k (BitVec.ofNat 16 ((m.token k).toNat + n.toNat))).retire t)
  | waitk (t k n) : (m.stream t).delay = 0 → n.toNat ≤ (m.token k).toNat →
      StrandWord s u m (.waitk t k n) ((m.setToken k (BitVec.ofNat 16 ((m.token k).toNat - n.toNat))).retire t)
  | mpush (a k) : m.masks.length < 8 → m.tile .x a = some k →
      StrandWord s u m (.mpush a) (Strand.retire { m with masks := (laneMask (s.image k) &&& m.mask) :: m.masks } .x)
  | mpushNew (a k) : m.masks.length < 8 → m.tile .x a = some k →
      StrandWord s u m (.mpushNew a) (Strand.retire { m with masks := laneMask (s.image k) :: m.masks } .x)
  | minvOne (top) : m.masks = [top] → StrandWord s u m .minv (Strand.retire { m with masks := [~~~top] } .x)
  | minv (top below r) : m.masks = top :: below :: r →
      StrandWord s u m .minv (Strand.retire { m with masks := (below &&& ~~~top) :: below :: r } .x)
  | mpop (top below r) : m.masks = top :: below :: r → StrandWord s u m .mpop (Strand.retire { m with masks := below :: r } .x)

/-- The words that wait at their place, with the strand as it waits (R423, R476, R426, R375). -/
inductive WaitingWord (m : Strand) : Instr → Strand → Prop where
  | sigk (t k n) : m.streamQuiet t = true → 2 ^ 16 ≤ (m.token k).toNat + n.toNat →
      WaitingWord m (.sigk t k n) (m.setWait t .room)
  | waitk (t k n) : (m.stream t).delay = 0 → (m.token k).toNat < n.toNat → WaitingWord m (.waitk t k n) (m.setWait t .token)
  | step : m.c.delay = 0 → WaitingWord m .step (m.setWait .c .step)
  | exit : m.c.delay = 0 → WaitingWord m .exit (m.setWait .c .exit)

/-! ### Memory words -/

/-- The address of a scalar access (R387): the register plus the offset in units of the width. -/
def effective (m : Strand) (a : Field) (sz : BitVec 2) (o : BitVec 10) : Word :=
  m.reg a + BitVec.ofInt 64 (o.toInt * 2 ^ sz.toNat)

/-- An aligned scratchpad access of `n` bytes, at a byte address of the model (R138, R139, R390). -/
def InPad (s : State) (c : Client) (va : Word) (n addr : Nat) : Prop :=
  fld va 63 57 = 0 ∧ va.toNat % n = 0 ∧ fld va 56 52 = 31 ∧ s.scratch c va = .ok addr

/-- The bytes that a leaf of the strand's own die gives lie at that die, in its memory or through a PEER leaf that names the die
itself (R170, R174). -/
def ownBytes (c : Client) (t : Target) : Bool := t.local_ || (t.die = c.die && !t.polder)

/-- An access to device memory, aligned to `n`, that the strand's own die translates and whose bytes it holds: the state after
the translation, and the byte address (R164, R174); a write stays within what its job may write (R17). -/
def InDevice (s : State) (c : Client) (va : Word) (n : Nat) (write : Bool) (s2 : State) (addr : Nat) : Prop :=
  fld va 63 57 = 0 ∧ va.toNat % n = 0 ∧ fld va 56 52 ≠ 31 ∧
  ∃ s1 p t far, s.resolve c va = (s1, .ok p) ∧ p.die = c.die ∧ s1.servedAt c.die p.die c.job p.key p.off = some c.die ∧
    s1.locateLeaf p c.job c.home c.die write = (s2, .ok t, far) ∧ ownBytes c t = true ∧
    (if write then s2.confine c.job c.die t.addr else t.addr) = addr

/-- The value of a load or atomic with a result, for `n` bytes that hold `v`. -/
def amoOld (n v : Nat) : Word := (BitVec.ofNat (8 * n) v).signExtend 64

/-- The low `n` bytes of a register. -/
def lowOf (n : Nat) (v : Word) : Nat := v.toNat % 2 ^ (8 * n)

/-- The bytes of an atomic's width (R339, R360). -/
def atomicBytes (w : Bool) : Nat := if w then 8 else 4

/-- The scratchpad words, under the conditions on which each completes, with the state afterwards (R339, R342, R344, R360, R377,
R388, R390, R430, R475). -/
inductive PadWord (s : State) (u : Nat) (m : Strand) (c : Client) : Instr → State → Prop where
  | lds (d a sz o addr) : InPad s c (effective m a sz o) (2 ^ sz.toNat) addr →
      PadWord s u m c (.lds d a sz o) (s.setStrand u ((m.setReg d (wd (s.rd addr (2 ^ sz.toNat)))).retire .c))
  | sts (d a sz o addr) : InPad s c (effective m a sz o) (2 ^ sz.toNat) addr →
      PadWord s u m c (.sts d a sz o) ((s.wr addr (2 ^ sz.toNat) (lowOf (2 ^ sz.toNat) (m.reg d))).setStrand u (m.retire .c))
  | amo (d a b x w o addr) : InPad s c (m.reg a) (atomicBytes w) addr →
      PadWord s u m c (.amo d a b x w o) ((s.wr addr (atomicBytes w) (amoNew (amoCode o x) (atomicBytes w) m.ieee
        (s.rd addr (atomicBytes w)) (lowOf (atomicBytes w) (m.reg b)))).setStrand u
          ((m.setReg d (amoOld (atomicBytes w) (s.rd addr (atomicBytes w)))).retire .c))
  | casTaken (d a b w addr) : InPad s c (m.reg a) (atomicBytes w) addr →
      s.rd addr (atomicBytes w) = lowOf (atomicBytes w) (m.reg d) →
      PadWord s u m c (.cas d a b w) ((s.wr addr (atomicBytes w) (lowOf (atomicBytes w) (m.reg b))).setStrand u
        ((m.setReg d (amoOld (atomicBytes w) (s.rd addr (atomicBytes w)))).retire .c))
  | casKept (d a b w addr) : InPad s c (m.reg a) (atomicBytes w) addr →
      s.rd addr (atomicBytes w) ≠ lowOf (atomicBytes w) (m.reg d) →
      PadWord s u m c (.cas d a b w) (s.setStrand u
        ((m.setReg d (amoOld (atomicBytes w) (s.rd addr (atomicBytes w)))).retire .c))
  | arinit (t p q x addr) : fld (m.reg q) 63 32 = 0 → s.counterCheck m.gang (m.reg p) = none → m.streamQuiet t = true →
      s.scratch c (m.reg p) = .ok addr →
      PadWord s u m c (.arinit t p q x)
        ((s.wr addr 16 ((arrivalOf (s.rd addr 16)).init (m.reg q).toNat).toNat).setStrand u (m.retire t))
  | arwait (t p x h addr) : s.counterCheck m.gang (m.reg p) = none → s.scratch c (m.reg p) = .ok addr →
      (arrivalOf (s.rd addr 16)).phase = h → PadWord s u m c (.arwait t p x h) (s.setStrand u (m.retire t))
  | fset (t p q x l) : s.feRange c (m.reg p) (m.reg q) = .inr l → m.streamQuiet t = true →
      PadWord s u m c (.fset t p q x) ((l.foldl State.setFull s).upd u fun k => k.retire t)
  | fclr (t p q x l) : s.feRange c (m.reg p) (m.reg q) = .inr l → m.streamQuiet t = true →
      PadWord s u m c (.fclr t p q x) ((l.foldl State.setEmpty s).upd u fun k => k.retire t)
  | ldfK (d a sz o addr g) : s.lsOutside m.gang (effective m a sz o) 1 = none →
      (effective m a sz o).toNat % 2 ^ sz.toNat = 0 → s.scratch c (effective m a sz o) = .ok addr →
      granuleOf addr = some g → s.full g = true →
      PadWord s u m c (.ldfK d a sz o) (s.setStrand u ((m.setReg d (wd (s.rd addr (2 ^ sz.toNat)))).retire .c))
  | ldfC (d a sz o addr g) : s.lsOutside m.gang (effective m a sz o) 1 = none →
      (effective m a sz o).toNat % 2 ^ sz.toNat = 0 → s.scratch c (effective m a sz o) = .ok addr →
      granuleOf addr = some g → s.full g = true →
      PadWord s u m c (.ldfC d a sz o)
        ((s.setEmpty g).setStrand u ((m.setReg d (wd (s.rd addr (2 ^ sz.toNat)))).retire .c))
  | waitfK (p q l) : s.feRange c (m.reg p) (m.reg q) = .inr l → l.all s.full = true →
      PadWord s u m c (.waitfK p q) (s.setStrand u (m.retire .c))
  | waitfC (p q l) : s.feRange c (m.reg p) (m.reg q) = .inr l → l.all s.full = true →
      PadWord s u m c (.waitfC p q) ((l.foldl State.setEmpty s).upd u fun k => k.retire .c)

/-- What a word on device memory asks for (R339, R360, R389, R429). -/
structure Asked where
  op : AccessOp
  va : Word
  bytes : Nat
  data : Word
  other : Word
  dst : Field
  deriving DecidableEq, Repr

/-- The words on device memory: what they ask for, and the alignment of their address (R207). -/
inductive AccessForm (m : Strand) : Instr → Asked → Nat → Prop where
  | ldg (d a sz o) : AccessForm m (.ldg d a sz o) ⟨.load false, effective m a sz o, 2 ^ sz.toNat, 0, 0, d⟩ (2 ^ sz.toNat)
  | stg (d a sz o) : AccessForm m (.stg d a sz o) ⟨.store, effective m a sz o, 2 ^ sz.toNat, m.reg d, 0, 0⟩ (2 ^ sz.toNat)
  | ldgAcq (d a o) : AccessForm m (.ldgAcq d a o) ⟨.acquireLoad, effective m a 3 o, 8, 0, 0, d⟩ 64
  | stgRel (d a o) : AccessForm m (.stgRel d a o) ⟨.releaseStore, effective m a 3 o, 8, m.reg d, 0, 0⟩ 64
  | amo (d a b x w o) : AccessForm m (.amo d a b x w o)
      ⟨.amo (amoCode o x) (d ≠ 0), m.reg a, atomicBytes w, m.reg b, if m.ieee then 1 else 0, d⟩ (atomicBytes w)
  | cas (d a b w) : AccessForm m (.cas d a b w) ⟨.cas, m.reg a, atomicBytes w, m.reg b, m.reg d, d⟩ (atomicBytes w)

/-- The request of a word of strand `u`'s C stream for an offset of a space (R163). -/
def Asked.request (q : Asked) (u : Nat) (m : Strand) (c : Client) (p : Spot) (waits : Bool) : Access :=
  { uid := u, stream := .c, pos := m.c.pos, op := q.op, job := c.job, key := p.key, off := p.off, va := q.va, bytes := q.bytes
    data := q.data, other := q.other, dst := q.dst, home := c.home, phys := none, via := 0, waits := waits }

/-- The request leaves the strand's die: a word that needs its answer, or whose request is yet to be translated (log 96), waits, and
one that posts has retired (R242). -/
def departed (s : State) (u : Nat) (c : Client) (d : DieKey) (route : Nat) (fwd : Bool) (body : Body) (waits : Bool) : State :=
  (s.sendOn c.die d route fwd body).upd u fun k => if waits then k.setWait .c (.reply s.ids) else k.retire .c

/-- Where a request of the strand's own die for a word that passes its checks goes, if the die does not hold the bytes: to the die
that its domain names (R163), to the die that a former home sends it on to (R164), or to the die of a PEER or POLDER leaf (R170,
R191). -/
inductive Leaves (s : State) (u : Nat) (m : Strand) (c : Client) (q : Asked) : State → Prop where
  | away (s1 p) : s.resolve c q.va = (s1, .ok p) → p.die ≠ c.die → s1.reach c.die p.die p.off = true →
      Leaves s u m c q (departed s1 u c p.die p.off false (.access (q.request u m c p true)) true)
  | former (s1 p d) : s.resolve c q.va = (s1, .ok p) → p.die = c.die →
      s1.servedAt c.die p.die c.job p.key p.off = some d → d ≠ c.die →
      Leaves s u m c q (departed s1 u c d p.off true (.access (q.request u m c p true)) true)
  | leaf (s1 p s2 t far waits a) : s.resolve c q.va = (s1, .ok p) → p.die = c.die →
      s1.servedAt c.die p.die c.job p.key p.off = some c.die →
      s1.locateLeaf p c.job c.home c.die q.op.writes = (s2, .ok t, far) → ownBytes c t = false →
      waits = !q.op.posts →
      a = { q.request u m c p waits with phys := some (t.addr, t.polder), via := c.die } →
      Leaves s u m c q (departed s2 u c t.die (t.addr % 2 ^ 40) true (if t.polder then .polder a t.addr else .access a) waits)

/-- The words on device memory, whose bytes the strand's own die holds or which it asks another die for (R163, R339, R360, R389,
R429). -/
inductive DeviceWord (s : State) (u : Nat) (m : Strand) (c : Client) : Instr → State → Prop where
  | sent (i q n t) : AccessForm m i q n → (q.op = .releaseStore → s.quiet u m .c = true) → fld q.va 63 57 = 0 →
      q.va.toNat % n = 0 → fld q.va 56 52 ≠ 31 → s.writeAhead u m .c q.va = false → Leaves s u m c q t → DeviceWord s u m c i t
  | ldg (d a sz o s2 addr) : s.writeAhead u m .c (effective m a sz o) = false → InDevice s c (effective m a sz o) (2 ^ sz.toNat) false s2 addr →
      DeviceWord s u m c (.ldg d a sz o) (s2.upd u fun k => (k.setReg d (wd (s2.rd addr (2 ^ sz.toNat)))).retire .c)
  | stg (d a sz o s2 addr) : s.writeAhead u m .c (effective m a sz o) = false → InDevice s c (effective m a sz o) (2 ^ sz.toNat) true s2 addr →
      DeviceWord s u m c (.stg d a sz o)
        ((s2.wr addr (2 ^ sz.toNat) (lowOf (2 ^ sz.toNat) (m.reg d))).upd u fun k => k.retire .c)
  | ldgAcq (d a o s2 addr) : s.writeAhead u m .c (effective m a 3 o) = false → InDevice s c (effective m a 3 o) 64 false s2 addr →
      DeviceWord s u m c (.ldgAcq d a o) (s2.upd u fun k => (k.setReg d (wd (s2.rd addr 8))).retire .c)
  | stgRel (d a o s2 addr) : s.quiet u m .c = true → s.writeAhead u m .c (effective m a 3 o) = false → InDevice s c (effective m a 3 o) 64 true s2 addr →
      DeviceWord s u m c (.stgRel d a o) ((s2.wr addr 8 (m.reg d).toNat).upd u fun k => k.retire .c)
  | amo (d a b x w o s2 addr) : s.writeAhead u m .c (m.reg a) = false → InDevice s c (m.reg a) (atomicBytes w) true s2 addr →
      DeviceWord s u m c (.amo d a b x w o) ((s2.wr addr (atomicBytes w) (amoNew (amoCode o x) (atomicBytes w) m.ieee
        (s2.rd addr (atomicBytes w)) (lowOf (atomicBytes w) (m.reg b)))).upd u fun k =>
          (k.setReg d (amoOld (atomicBytes w) (s2.rd addr (atomicBytes w)))).retire .c)
  | cas (d a b w s2 addr) : s.writeAhead u m .c (m.reg a) = false → InDevice s c (m.reg a) (atomicBytes w) true s2 addr →
      DeviceWord s u m c (.cas d a b w)
        ((if s2.rd addr (atomicBytes w) = lowOf (atomicBytes w) (m.reg d) then
            s2.wr addr (atomicBytes w) (lowOf (atomicBytes w) (m.reg b)) else s2).upd u fun k =>
          (k.setReg d (amoOld (atomicBytes w) (s2.rd addr (atomicBytes w)))).retire .c)

/-- A word that stores: the address and the bytes of its store (R339, R360, R429, R430). -/
inductive StoreForm (m : Strand) : Instr → Word → Nat → Prop where
  | sts (d a sz o) : StoreForm m (.sts d a sz o) (effective m a sz o) (2 ^ sz.toNat)
  | stg (d a sz o) : StoreForm m (.stg d a sz o) (effective m a sz o) (2 ^ sz.toNat)
  | stgRel (d a o) : StoreForm m (.stgRel d a o) (effective m a 3 o) 8
  | amo (d a b x w o) : StoreForm m (.amo d a b x w o) (m.reg a) (atomicBytes w)
  | cas (d a b w) : StoreForm m (.cas d a b w) (m.reg a) (atomicBytes w)

/-- A word that loads and stores nothing, and its destination (R388 to R390). -/
inductive LoadForm : Instr → Field → Prop where
  | lds (d a sz o) : LoadForm (.lds d a sz o) d
  | ldg (d a sz o) : LoadForm (.ldg d a sz o) d
  | ldgAcq (d a o) : LoadForm (.ldgAcq d a o) d
  | ldfK (d a sz o) : LoadForm (.ldfK d a sz o) d
  | ldfC (d a sz o) : LoadForm (.ldfC d a sz o) d

/-- Where an access by a word of the strand stores, if its own die holds the bytes. -/
def storesAt (s : State) (c : Client) (va : Word) : Option Nat :=
  if fld va 56 52 = 31 then match s.scratch c va with
    | .ok a => some a
    | _ => none
  else match s.resolve c va with
    | (s1, .ok p) =>
      if p.die = c.die && s1.servedAt c.die p.die c.job p.key p.off = some c.die then
        match s1.locateLeaf p c.job c.home c.die true with
        | (s2, .ok t, _) => if ownBytes c t then some (s2.confine c.job c.die t.addr) else none
        | _ => none
      else none
    | _ => none

/-- A byte of the notification that a package writes next (R281). -/
def Notified (s : State) (x : Nat) : Prop :=
  ∃ p : Pkg, hostAddr p.toNat ((s.pkg p).nqbase.toNat + 16 * (s.pkg p).nqtail.toNat) ≤ x ∧
    x < hostAddr p.toNat ((s.pkg p).nqbase.toNat + 16 * (s.pkg p).nqtail.toNat) + 16

/-- The registers and tables that no scalar word of the C stream on memory writes, a fault's stop included. -/
def SameTables (m n : Strand) : Prop :=
  n.tok = m.tok ∧ n.masks = m.masks ∧ n.lanes = m.lanes ∧ n.win = m.win ∧ n.base = m.base ∧ n.size = m.size ∧
  n.nrot = m.nrot ∧ n.rrb = m.rrb ∧ n.tcfg = m.tcfg ∧ n.tstat = m.tstat ∧ n.rnd = m.rnd ∧ n.ieee = m.ieee ∧
  n.lfLane = m.lfLane ∧ n.lfAuto = m.lfAuto ∧ n.mEntry = m.mEntry ∧ n.mWord = m.mWord ∧ n.feGroup = m.feGroup ∧
  n.stepv = m.stepv ∧ n.bindA = m.bindA ∧ n.bindB = m.bindB ∧ n.dmap = m.dmap ∧ n.asts = m.asts ∧ n.prog = m.prog ∧
  n.errq = m.errq ∧ n.errOvf = m.errOvf ∧ n.trig = m.trig ∧ n.place = m.place ∧ n.priv = m.priv ∧ n.rank = m.rank ∧
  n.gang = m.gang ∧ n.member = m.member ∧ n.acq = m.acq ∧ n.colls = m.colls ∧ n.saved = m.saved ∧
  n.early = m.early ∧ n.taker = m.taker

/-! ### Sync cells -/

/-- A cell's address whose checks pass, that the strand's own die translates and whose bytes it holds, and the name of the cell
(R207, R332). -/
def InCell (s : State) (c : Client) (va : Word) (s2 : State) (addr : Nat) (name : CellName) : Prop :=
  cellCheck va = none ∧
  ∃ s1 p t, s.resolve c va = (s1, .ok p) ∧ p.die = c.die ∧ s1.servedAt c.die p.die c.job p.key p.off = some c.die ∧
    s1.locate p c.job c.home c.die true = (s2, .ok t) ∧ t.local_ = true ∧ t.addr = addr ∧ name = ⟨c.die, c.job, p.key, p.off⟩

/-- The state of a binding entry after BIND (R353). -/
def bindEntry (m : Strand) (e : Field) (a b : Word) : Strand :=
  Strand.retire { m with bindA := vset m.bindA e.toNat a, bindB := vset m.bindB e.toNat b } .c

/-- Where the request or the release of a cell that lies at another die goes: the state in which it is sent, the die, the route,
whether it has been sent on, and how it names the cell (R163, R164, R170, R191, R207). -/
inductive CellAway (s : State) (u : Nat) (c : Client) (va : Word) : State → DieKey → Nat → Bool → CellAddr → Prop where
  | away (s1 p) : s.resolve c va = (s1, .ok p) → p.die ≠ c.die → s1.reach c.die p.die p.off = true →
      CellAway s u c va s1 p.die p.off false (mkCell u c p va)
  | former (s1 p d) : s.resolve c va = (s1, .ok p) → p.die = c.die → s1.servedAt c.die p.die c.job p.key p.off = some d →
      d ≠ c.die → CellAway s u c va s1 d p.off true (mkCell u c p va)
  | leaf (s1 p s2 t) : s.resolve c va = (s1, .ok p) → p.die = c.die →
      s1.servedAt c.die p.die c.job p.key p.off = some c.die → s1.locate p c.job c.home c.die true = (s2, .ok t) →
      t.local_ = false → CellAway s u c va s2 t.die (t.addr % 2 ^ 40) true { mkCell u c p va with phys := some (t.addr, t.polder) }

/-- The cell words, under the conditions on which each completes, joins its queue or leaves for the cell's die, with the state
afterwards (R332, R353, R411). -/
inductive CellWord (s : State) (u : Nat) (m : Strand) (c : Client) : Instr → State → Prop where
  | acqSent (p s2 d route fwd a) : m.acq = none → cellCheck (m.reg p) = none → s.writeAhead u m .c (m.reg p) = false →
      CellAway s u c (m.reg p) s2 d route fwd a →
      CellWord s u m c (.acq p) ((s2.sendOn c.die d route fwd (.cellReq a true)).upd u fun k =>
        { k.setWait .c .cell with acq := some (m.reg p, none) })
  | acqShSent (p s2 d route fwd a) : m.acq = none → cellCheck (m.reg p) = none → s.writeAhead u m .c (m.reg p) = false →
      CellAway s u c (m.reg p) s2 d route fwd a →
      CellWord s u m c (.acqSh p) ((s2.sendOn c.die d route fwd (.cellReq a false)).upd u fun k =>
        { k.setWait .c .cell with acq := some (m.reg p, none) })
  | relSent (p s2 d route fwd a) : s.quiet u m .c = true → cellCheck (m.reg p) = none →
      CellAway s u c (m.reg p) s2 d route fwd a →
      CellWord s u m c (.rel p) ((s2.sendOn c.die d route fwd (.cellRel a true)).upd u fun k =>
        k.setWait .c (.reply s2.ids))
  | acqQueued (p va) : m.acq = some (va, none) → CellWord s u m c (.acq p) (s.setStrand u (m.setWait .c .cell))
  | acqShQueued (p va) : m.acq = some (va, none) → CellWord s u m c (.acqSh p) (s.setStrand u (m.setWait .c .cell))
  | acq (p s2 addr name) : m.acq = none → s.writeAhead u m .c (m.reg p) = false → InCell s c (m.reg p) s2 addr name →
      s2.cellWait c.die addr = none →
      CellWord s u m c (.acq p) ((s2.cellAsk c.die addr ⟨u, true, name⟩).upd u fun k =>
        { k.setWait .c .cell with acq := some (m.reg p, none) })
  | acqSh (p s2 addr name) : m.acq = none → s.writeAhead u m .c (m.reg p) = false → InCell s c (m.reg p) s2 addr name →
      s2.cellWait c.die addr = none →
      CellWord s u m c (.acqSh p) ((s2.cellAsk c.die addr ⟨u, false, name⟩).upd u fun k =>
        { k.setWait .c .cell with acq := some (m.reg p, none) })
  | acqGranted (p va e) : m.acq = some (va, some e) →
      CellWord s u m c (.acq p) (s.setStrand u (Strand.retire { s.granted m e with acq := none } .c))
  | acqShGranted (p va e) : m.acq = some (va, some e) →
      CellWord s u m c (.acqSh p) (s.setStrand u (Strand.retire { s.granted m e with acq := none } .c))
  | rel (p s2 addr name) : s.quiet u m .c = true → InCell s c (m.reg p) s2 addr name →
      s2.cellWait c.die addr = none →
      CellWord s u m c (.rel p) ((s2.cellDrop c.die addr u c.job c.die (m.reg p)).upd u fun k => k.retire .c)
  | unbind (p q r e) : m.reg q = 0 → bindHeld (vget m.bindB 0 e.toNat) = false →
      CellWord s u m c (.bind p q r e) (s.setStrand u (bindEntry m e (vget m.bindA 0 e.toNat)
        (vget m.bindB 0 e.toNat &&& ~~~(1 : Word))))
  | bind (p q r e s1 t) : (m.reg q).toNat ≠ 0 → (m.reg q).toNat % 4096 = 0 → (m.reg q).toNat ≤ 2147483648 →
      (m.reg p).toNat % 4096 = 0 → cellCheck (m.reg r) = none → s.access c (m.reg r) 8 true = (s1, .ok t) →
      bindHeld (vget m.bindB 0 e.toNat) = false →
      CellWord s u m c (.bind p q r e) (s1.upd u fun k => bindEntry k e
        (wd (fld (m.reg p) 56 12 + ((m.reg q).toNat / 4096 - 1) * 2 ^ 45))
        (1 ||| (match s1.holdOf t.die t.addr u with
          | some h => if h.excl then (2 : Word) else 6
          | none => 0) ||| (m.reg r &&& 0x01FFFFFFFFFFFFC0)))
  | bindHeld (p q r e s1 t) : (m.reg q).toNat ≠ 0 → (m.reg q).toNat % 4096 = 0 → (m.reg q).toNat ≤ 2147483648 →
      (m.reg p).toNat % 4096 = 0 → cellCheck (m.reg r) = none → s.access c (m.reg r) 8 true = (s1, .ok t) →
      Machine.bindHeld (vget m.bindB 0 e.toNat) = true → s1.sameCell m (bindCell (vget m.bindB 0 e.toNat)) (m.reg r) = true →
      CellWord s u m c (.bind p q r e) (s1.upd u fun k => bindEntry k e
        (wd (fld (m.reg p) 56 12 + ((m.reg q).toNat / 4096 - 1) * 2 ^ 45))
        (1 ||| (match s1.holdOf t.die t.addr u with
          | some h => if h.excl then (2 : Word) else 6
          | none => vget m.bindB 0 e.toNat &&& 6) ||| (m.reg r &&& 0x01FFFFFFFFFFFFC0)))

/-- The rows of a cell's messages, with the state afterwards (R209, R332, R411). -/
inductive CellRow (s : State) (q : Msg) : Instr → State → Prop where
  | request (a excl s1 addr a1 d) : q.body = .cellReq a excl → s.cellAt q a = (s1, .ok (some addr, a1, d)) →
      s1.cellWait q.dst addr = none →
      CellRow s q .cellRequest ((s1.dropMsg q.id).cellAsk q.dst addr ⟨a1.uid, excl, a1.name a1.via⟩)
  | release (a excl s1 addr a1 d) : q.body = .cellRel a excl → s.cellAt q a = (s1, .ok (some addr, a1, d)) →
      s1.cellWait q.dst addr = none →
      CellRow s q .cellRelease
        ((s1.cellDrop q.dst addr a1.uid a1.job a1.via a1.va).reply q (.reply a1.uid .c 0 0 a1.va q.id))
  | grant (u excl m) : q.body = .cellGrant u excl true → s.strand u = some m → m.c.wait = .cell → m.canIssue = true →
      CellRow s q .cellGrant
        ((s.dropMsg q.id).setStrand u (Strand.retire { s.granted m excl with acq := none } .c))
  | grantLater (u excl m) : q.body = .cellGrant u excl true → s.strand u = some m → m.c.wait ≠ .cell →
      CellRow s q .cellGrant ((s.dropMsg q.id).setStrand u (s.granted m excl))

/-! ### System words -/

/-- The words of the system family, and the rows that end their waits, with the state afterwards (R57, R58, R60, R62, R373,
R375, R382, R444, R478). -/
inductive SystemWord (s : State) (u : Nat) (m : Strand) : Instr → State → Prop where
  | yield : SystemWord s u m .yield { s.setStrand u m.park with array := s.array.filter fun e => e.2 ≠ u }
  | trig : s.quiet u m .c = true → m.trig = false →
      SystemWord s u m .trig (((s.setStrand u { m.retire .c with trig := true }).updGang m.gang fun g =>
        { g with trigs := g.trigs ++ [u] }).gangTrigger m.gang)
  | trigAgain : s.quiet u m .c = true → m.trig = true → SystemWord s u m .trig (s.setStrand u (m.retire .c))
  | gbar (g) : s.gang? m.gang = some g → g.live.all (fun v => v = u) = true →
      SystemWord s u m .gbar (s.setStrand u (m.retire .c))
  | gbarWaits (g) : s.gang? m.gang = some g → g.live.all (fun v => v = u) = false →
      SystemWord s u m .gbar (s.setStrand u (m.setWait .c .gbar))
  | enq (d q n r) : m.c.delay = 0 → fld (m.reg q) 63 57 = 0 → fld (m.reg q) 56 52 ≠ 31 → (m.reg q).toNat % 64 = 0 →
      s.quiet u m .c = true → s.rank? m.rank = some r → (vget r.queues [] n.toNat).length < 256 →
      SystemWord s u m (.enq d q n) ((s.setRank m.rank { r with
        queues := vset r.queues n.toNat (vget r.queues [] n.toNat ++ [⟨m.reg q, m.priv, false⟩]) }).setStrand u
          ((m.setReg d 0).retire .c))
  | enqFull (d q n r) : m.c.delay = 0 → fld (m.reg q) 63 57 = 0 → fld (m.reg q) 56 52 ≠ 31 →
      (m.reg q).toNat % 64 = 0 → s.quiet u m .c = true → s.rank? m.rank = some r →
      256 ≤ (vget r.queues [] n.toNat).length →
      SystemWord s u m (.enq d q n) (s.setStrand u ((m.setReg d 1).retire .c))

/-- A strand stands at its GBAR. -/
def atBarrier (s : State) (u : Nat) : Prop := ∃ m, s.strand u = some m ∧ m.c.wait = .gbar ∧ m.place.isSome = true

/-- The rows that end a wait of a resident strand (R58, R243, R426, R479), with the state afterwards. -/
inductive WaitEnds (s : State) (loc : Loc) (u : Nat) (m : Strand) : Instr → State → Prop where
  | exit : m.c.wait = .exit → m.canIssue = true → s.quiet u m .c = true → m.cmds = [] → s.endWait u = none →
      WaitEnds s loc u m (.exitRetire loc) (s.endStrand u)
  | ended : m.state = .ended → s.writesOut u = false → WaitEnds s loc u m (.exitRetire loc) ((s.reportErrors u).freeBank u)
  | step (r) : s.rank? m.rank = some r → m.c.wait = .step → m.canIssue = true → s.quiet u m .c = true → m.cmds = [] →
      r.stepping = none → s.reclaimOpen r = false →
      WaitEnds s loc u m (.stepBoundary loc) ((s.advanceStep m.rank u).boundary m.rank)
  | unpark : m.state = .parked 0 → WaitEnds s loc u m (.bankUnpark loc) (s.setStrand u { m with state := .run })

/-! ### Pages -/

/-- The page procedures (R179): destination, address, argument, and whether writes to the page stall meanwhile. -/
inductive PageForm (m : Strand) : Instr → Field → Field → Word → Bool → Prop where
  | split (d a) : PageForm m (.pgsplit d a) d a 0 false
  | coll (d a b) : (m.reg b).toNat < 2 ^ 12 → PageForm m (.pgcoll d a b) d a (m.reg b) true
  | mig (d a b) : (m.reg b).toNat < 2 ^ 13 → PageForm m (.pgmig d a b) d a (m.reg b) true

/-- The hold that a page procedure takes at each die of the page (R183). -/
def holdPage (s : State) (u : Nat) (job : BitVec 32) (p : Spot) (l : LeafAt) (arg : Word) (stalls : Bool) : State :=
  (p.die :: (s.replicas p.die l.leaf).filter (· ≠ p.die)).foldl (fun (acc : State) k => acc.updDie k fun v => { v with
    held := v.held ++ [Held.mk job p.key (p.off / 2 ^ sizeBits l.size * 2 ^ sizeBits l.size) (BitVec.ofNat 2 l.size)
      (.procedure u arg stalls p.off)] }) s

/-- The page words in privileged strands, with the state afterwards (R177, R179, R434). -/
inductive PageWord (s : State) (u : Nat) (m : Strand) (c : Client) : Instr → State → Prop where
  | tlbi (p s1 q) : s.spaceCheck c (m.reg p) = (s1, .ok q) → s1.translatedOut c.job q.key = false →
      PageWord s u m c (.tlbi p) ((s1.tlbInval c.job q).upd u fun k => k.retire .c)
  | tlbiSp (p s1 q) : s.spaceCheck c (m.reg p) = (s1, .ok q) → s1.translatedOut c.job q.key = false →
      PageWord s u m c (.tlbiSp p) ((s1.invalSpace q.die c.job q.key).upd u fun k => k.retire .c)
  | unmapped (i d a arg b s1 p) : PageForm m i d a arg b → s.spaceCheck c (m.reg a) = (s1, .ok p) →
      s1.walk p.die c.job p.key p.off = none → PageWord s u m c i (s1.upd u fun k => (k.setReg d 1).retire .c)
  | held (i d a arg b s1 p l h) : PageForm m i d a arg b → s.spaceCheck c (m.reg a) = (s1, .ok p) →
      s1.walk p.die c.job p.key p.off = some l → (s1.die p.die).heldAt c.job p.key p.off = some h →
      PageWord s u m c i (s1.upd u fun k => (k.setReg d 3).retire .c)
  | reserved (i d a arg b s1 p l) : PageForm m i d a arg b → s.spaceCheck c (m.reg a) = (s1, .ok p) →
      s1.walk p.die c.job p.key p.off = some l → (s1.die p.die).heldAt c.job p.key p.off = none → leafMode l.leaf = 3 →
      PageWord s u m c i (s1.upd u fun k => (k.setReg d 4).retire .c)
  | begins (i d a arg b s1 p l) : PageForm m i d a arg b → s.spaceCheck c (m.reg a) = (s1, .ok p) →
      s1.walk p.die c.job p.key p.off = some l → (s1.die p.die).heldAt c.job p.key p.off = none → leafMode l.leaf ≠ 3 →
      s1.unsweptIn p.die c.job p.key (p.off / 2 ^ sizeBits l.size * 2 ^ sizeBits l.size) (sizeUnits l.size) = none →
      PageWord s u m c i ((holdPage s1 u c.job p l arg b).upd u fun k => k.setWait .c .page)
  | sweptFirst (i d a arg b s1 p l r page) : PageForm m i d a arg b → s.spaceCheck c (m.reg a) = (s1, .ok p) →
      s1.walk p.die c.job p.key p.off = some l → (s1.die p.die).heldAt c.job p.key p.off = none → leafMode l.leaf ≠ 3 →
      s1.unsweptIn p.die c.job p.key (p.off / 2 ^ sizeBits l.size * 2 ^ sizeBits l.size) (sizeUnits l.size) = some (r, page) →
      PageWord s u m c i (s1.askSweep r page)

/-- The copy of a hardware migration that a die began first: its hold, the home that the page moves to, and the frame there. -/
def FirstMigration (v : Die) (h : Held) (home : DieKey) (f : Nat) : Prop :=
  ∃ before after, v.held = before ++ h :: after ∧ h.by_ = .hwMigration home f ∧ ∀ x, x ∈ before → ∀ d k, x.by_ ≠ .hwMigration d k

/-- A hardware migration is over: its hold is gone, and the page's counts restart at zero (R173). -/
def migrated (s : State) (die : DieKey) (h : Held) : State :=
  s.updDie die fun v => { v with
    held := v.held.erase h
    counts := v.counts.filter fun x => !(x.job = h.job && x.key = h.key && x.page = h.off / 65536) }

/-- The rows that end the work of the page engines, with the state afterwards (R173, R179, R193). -/
inductive PageRow (s : State) : Instr → State → Prop where
  | procedure (loc : Loc) (u m c w i d a arg b k h x status s1) : s.onBank loc.toNat = some (u, m) →
      m.c.wait = .page → m.wordAt m.c.pos = some w → decode w.bits = some i → s.clientOf m = some c →
      PageForm m i d a arg b → s.heldBy u c (m.reg a) = some (k, h, x) → s.translatedOut h.job h.key = false → s.dieHeld k = false →
      s.uncopiedIn k h.job h.key h.off (sizeUnits h.size.toNat) = none → s.pageEnd i k h x = (status, s1) →
      PageRow s (.pageProcedureDone loc)
        (((s1.dropHolds u).upd u fun n => (n.setReg d (wd status)).retire .c).takeFault u)
  | migration (die h home f l s1) : FirstMigration (s.die die) h home f → s.translatedOut h.job h.key = false →
      s.dieHeld die = false →
      s.uncopiedIn die h.job h.key h.off 1 = none → s1 = migrated s die h → s1.walk die h.job h.key h.off = some l → l.size = 0 →
      leafMode l.leaf = 2 → s1.reach die home h.off = true → s1.reach die (leafPlace die l.leaf).1 h.off = true →
      PageRow s (.hwMigrationDone die)
        ((((s1.movePage h.job die l.leaf (movedLeaf l.leaf die home false f)).setPhysWord die l.lpddr l.at_
          (movedLeaf l.leaf die home false f)).freeLeaf die l.leaf).invalPage die h.job h.key h.off)
  | migrationStays (die h home f s1) : FirstMigration (s.die die) h home f → s.translatedOut h.job h.key = false →
      s.dieHeld die = false →
      s.uncopiedIn die h.job h.key h.off 1 = none → s1 = migrated s die h →
      (∀ l, s1.walk die h.job h.key h.off = some l → l.size ≠ 0 ∨ leafMode l.leaf ≠ 2 ∨ s1.reach die home h.off = false ∨
        s1.reach die (leafPlace die l.leaf).1 h.off = false) →
      PageRow s (.hwMigrationDone die) (s1.updDie home fun v => v.giveFrames false f 1)
  | demotion (die) (entry : BitVec 4) (p h f g) : tabGet (s.die die).polders entry.toNat = some p →
      p.borrower = true → p.state = 3 → (s.die die).copying entry.toNat = some (h, f) →
      s.translatedOut h.job h.key = false → s.dieHeld die = false → s.current die p = some g →
      s.reach die (dieOfPeer p.lender) (leafFrame g.leaf * 65536) = true →
      (s.die (dieOfPeer p.lender)).lends (peerOf die) (leafFrame g.leaf) = true →
      s.uncopiedIn die h.job h.key h.off g.units = none →
      PageRow s (.pageDemoteDone die entry) (s.demote die entry.toNat p h f g)

/-- A page has moved: its bytes lie at the new place, but where those frames have been lent since, of which no byte changes (log 105); and
no byte of a die's memory but those and the leaf's has changed. -/
def PageMoved (s t : State) (d : DieKey) (l : LeafAt) (old new : Nat) : Prop :=
  let inLeaf := fun (x : Nat) => tierAddr l.lpddr d.toNat l.at_ ≤ x ∧ x < tierAddr l.lpddr d.toNat l.at_ + 8
  let n := 2 ^ sizeBits (leafSize l.leaf)
  (∀ x, x / 2 ^ 64 ≤ 4 → ¬ inLeaf x → ¬ (new ≤ x ∧ x < new + n) → Memory.read t.mem x = Memory.read s.mem x) ∧
  ∀ j, j < n → (new + j) / 2 ^ 64 ≤ 4 → ¬ inLeaf (new + j) →
    Memory.read t.mem (new + j) = if s.lentFrame new j then Memory.read s.mem (new + j) else Memory.read s.mem (old + j)

/-- Where the leaves of a page lie at its dies, as the end of a procedure finds them (R178, R181). -/
def leafSpots (l : List (DieKey × LeafAt)) : List (Nat × Nat) := l.map fun e => (tierAddr e.2.lpddr e.1.toNat e.2.at_, 8)

/-- Where a split writes, die after die: the slot of the large leaf, and the lower table, which is the slot's or a new one (R178). -/
def splitSpots : List (DieKey × LeafAt) → State → List (Nat × Nat)
  | [], _ => []
  | (k, l) :: rest, s =>
    let slot := s.physWord k l.lpddr (l.at_ + 8)
    let n := if l.size = 1 then 256 else 8192
    [(tierAddr l.lpddr k.toNat l.at_, 16)] ++
      (if tblV slot then [(tierAddr (tblTier slot) k.toNat (tblAddr slot), n)]
        else match (s.die k).takeTable (n / 256) with
          | none => []
          | some (lp, part, _) => [(tierAddr lp k.toNat (part * 256), n)]) ++
      match s.splitAt k l with
      | none => []
      | some s1 => splitSpots rest s1

/-! ### Leases -/

/-- The lease words in privileged strands, with the state afterwards (R187 to R189, R391, R409). -/
inductive LeaseWord (s : State) (u : Nat) (m : Strand) (c : Client) : Instr → State → Prop where
  | lend (d q s1 v) : s.writesOut u = false → s.readVa c (m.reg q) 32 = (s1, .ok v) →
      s1.reach c.die (dieOfPeer (BitVec.ofNat 12 (v / 2 ^ 8))) 0 = true →
      LeaseWord s u m c (.lend d q) ((s1.send c.die (dieOfPeer (BitVec.ofNat 12 (v / 2 ^ 8))) (64 * s1.ids)
        (.lend (wd v) (wd (v / 2 ^ 64)) (wd (v / 2 ^ 128)) (wd (v / 2 ^ 192)) (.strand u d))).upd u fun k =>
          k.setWait .c .lease)
  | lendAfterStores (d q) : s.writesOut u = true → LeaseWord s u m c (.lend d q) s
  | lendLost (d q s1 v) : s.writesOut u = false → s.readVa c (m.reg q) 32 = (s1, .ok v) →
      s1.reach c.die (dieOfPeer (BitVec.ofNat 12 (v / 2 ^ 8))) 0 = false →
      LeaseWord s u m c (.lend d q) (s1.upd u fun k => (k.setReg d 5).retire .c)
  | reclaim (d q s1 status) : s.legHeld c.die c.die (dieOfPeer (BitVec.ofNat 12 (m.reg q).toNat)) = false → s.reclaim c.die (m.reg q) = (s1, status) →
      LeaseWord s u m c (.reclaim d q) (s1.upd u fun k => (k.setReg d (wd status)).retire .c)

/-- The rows of the lease messages, with the state afterwards (R187, R190, R193, R196, R197). -/
inductive LeaseRow (s : State) (q : Msg) : Instr → State → Prop where
  | malformed (w0 w1 w2 w3 who) : q.body = .lend w0 w1 w2 w3 who → lendMalformed w0 w1 w2 w3 = true →
      LeaseRow s q .lendRequest ((s.dropMsg q.id).lendAnswer q.dst 1 0 0 who)
  | noEntry (w0 w1 w2 w3 who) : q.body = .lend w0 w1 w2 w3 who → lendMalformed w0 w1 w2 w3 = false →
      (s.die q.dst).freeEntry = none → LeaseRow s q .lendRequest ((s.dropMsg q.id).lendAnswer q.dst 2 0 0 who)
  | overlaps (w0 w1 w2 w3 who i) : q.body = .lend w0 w1 w2 w3 who → lendMalformed w0 w1 w2 w3 = false →
      (s.die q.dst).freeEntry = some i →
      ((s.die q.dst).polders.any fun e => !e.2.borrower && e.2.meets (polderOf w0 w1 w2 1 false)) = true →
      LeaseRow s q .lendRequest ((s.dropMsg q.id).lendAnswer q.dst 3 0 0 who)
  | offered (w0 w1 w2 w3 who i) : q.body = .lend w0 w1 w2 w3 who → lendMalformed w0 w1 w2 w3 = false →
      (s.die q.dst).freeEntry = some i →
      ((s.die q.dst).polders.any fun e => !e.2.borrower && e.2.meets (polderOf w0 w1 w2 1 false)) = false →
      LeaseRow s q .lendRequest (((s.dropMsg q.id).updDie q.dst fun v => { v with
        polders := tabPut v.polders i (polderOf w0 w1 w2 1 false) }).send q.dst (dieOfPeer (polderOf w0 w1 w2 1 false).borrow)
          (64 * s.ids) (.offer i (polderOf w0 w1 w2 1 false) who))
  | taken (le p who j) : q.body = .offer le p who → (s.die q.dst).freeEntry = some j →
      LeaseRow s q .leaseOffer (((s.dropMsg q.id).updDie q.dst fun v => { v with
        polders := tabPut v.polders j { p with state := 2, borrower := true, peer := le } }).send q.dst q.src (64 * s.ids)
          (.answer le (some j) who))
  | declined (le p who) : q.body = .offer le p who → (s.die q.dst).freeEntry = none →
      LeaseRow s q .leaseOffer ((s.dropMsg q.id).send q.dst q.src (64 * s.ids) (.answer le none who))
  | active (i j who p) : q.body = .answer i (some j) who → tabGet (s.die q.dst).polders i = some p →
      p.borrower = false → p.state = 1 →
      LeaseRow s q .offerAnswer (((s.dropMsg q.id).updPolder q.dst i fun p => { p with state := 2, peer := j }).lendAnswer
        q.dst 0 i j who)
  | failed (i who p) : q.body = .answer i none who → tabGet (s.die q.dst).polders i = some p →
      p.borrower = false → p.state = 1 →
      LeaseRow s q .offerAnswer (((s.dropMsg q.id).freePolder q.dst i).lendAnswer q.dst 4 0 0 who)
  | gone (i j who) : q.body = .answer i (some j) who → tabGet (s.die q.dst).polders i = none →
      tabGet (s.die q.src).polders j = none →
      LeaseRow s q .offerAnswer ((s.dropMsg q.id).lendAnswer q.dst 5 0 0 who)
  | reclaiming (le i p) : q.body = .reclaimEvent le i → tabGet (s.die q.dst).polders i = some p →
      p.borrower = true → p.state = 2 → p.lender = peerOf q.src →
      LeaseRow s q .reclaimEvent (((s.dropMsg q.id).updPolder q.dst i fun v => { v with
        state := 3, live := BitVec.ofNat 32 (s.liveFrom q.dst p 0).length, todo := (s.liveFrom q.dst p 0).map (·.toLiveAt)
        granule := 0 }).demoteFrom q.dst i 0)
  | returned (i p) : q.body = .returned i → tabGet (s.die q.dst).polders i = some p →
      p.borrower = false → p.state = 3 → p.dleft ≠ 0 → p.borrow = peerOf q.src →
      LeaseRow s q .returnMessage (((s.dropMsg q.id).updPolder q.dst i fun p => { p with state := 4, dleft := 0 }).leaseNote
        q.dst i p 4)
  | returnedLate (i p) : q.body = .returned i → tabGet (s.die q.dst).polders i = some p → p.dleft = 0 → p.state = 3 →
      LeaseRow s q .returnMessage (s.dropMsg q.id)
  | fenced (i p) : q.body = .fence i → tabGet (s.die q.dst).polders i = some p → p.lender = peerOf q.src →
      LeaseRow s q .fenceMessage ((s.dropMsg q.id).fenceBorrower q.dst i)

/-! ### Tile memory -/

/-- The effective address of a word of format TM: the offset counts 16-byte units (R300, R436). -/
def tileAddress (m : Strand) (b : Field) (o : BitVec 12) : Word := m.reg b + BitVec.ofInt 64 (16 * o.toInt)

/-- Two 4 KiB runs are the same or do not meet (R443). -/
def apartOrSame (a b : Word) : Prop := a = b ∨ a.toNat + 4096 ≤ b.toNat ∨ b.toNat + 4096 ≤ a.toNat

/-- A TLDT from block (j, b) on completes: each block's rows can be read, and become its columns (R245, R441). -/
inductive TldtRuns (u : Nat) (c : Client) (k : Tile) (ea : Word) (pos bs : Nat) : Nat → Nat → Nat → State → State → Prop where
  | done (j b s) : TldtRuns u c k ea pos bs 0 j b s (s.upd u fun m => (m.dropProg pos).retire .l)
  | block (todo j b s s1 parts t) : s.checkParts c false (tldtRows ea k.rows (cfgWidth k.fmt) j b) = (s1, .ok parts) →
      TldtRuns u c k ea pos bs todo (if b + 1 = bs then j + 1 else j) (if b + 1 = bs then 0 else b + 1)
        (s1.setImage k (tldtPut (s1.image k) k.cols (cfgWidth k.fmt) j b (parts.map fun p => s1.rd p.addr p.bytes))) t →
      TldtRuns u c k ea pos bs (todo + 1) j b s t

/-- The words between memory and tiles, under the conditions on which each completes, with the state afterwards (R362, R437,
R438, R441, R443). -/
inductive TileWord (s : State) (u : Nat) (m : Strand) (c : Client) : Instr → State → Prop where
  | tld (n b o k s1 parts) : m.typedTile .l n = some k → (tileAddress m b o).toNat % 16 = 0 →
      s.checkRange c (tileAddress m b o) (imageBytes k.cfg) false = (s1, .ok parts) →
      TileWord s u m c (.tld n b o)
        ((s1.setImage k (lowBytes (s1.image k) (imageBytes k.cfg) (s1.readParts parts))).upd u fun x => x.retire .l)
  | tst (n b o k s1 parts) : m.typedTile .s n = some k → (tileAddress m b o).toNat % 16 = 0 →
      s.checkRange c (tileAddress m b o) (imageBytes k.cfg) true = (s1, .ok parts) →
      TileWord s u m c (.tst n b o)
        ((s1.writeParts ((s1.image k).toNat % 2 ^ (8 * imageBytes k.cfg)) parts).upd u fun x => x.retire .s)
  | tldk (n b o k s1 parts l) : m.typedTile .l n = some k → (tileAddress m b o).toNat % 16 = 0 →
      s.lsOutside m.gang (tileAddress m b o) (imageBytes k.cfg) = none →
      s.checkRange c (tileAddress m b o) (imageBytes k.cfg) false = (s1, .ok parts) →
      s.lsGranules c (tileAddress m b o) (imageBytes k.cfg) = .ok l → l.all s1.full = true →
      TileWord s u m c (.tldk n b o)
        ((l.foldl State.setEmpty (s1.setImage k (lowBytes (s1.image k) (imageBytes k.cfg) (s1.readParts parts)))).upd u
          fun x => x.retire .l)
  | tstk (n b o k s1 parts l) : m.typedTile .s n = some k → (tileAddress m b o).toNat % 16 = 0 →
      s.lsOutside m.gang (tileAddress m b o) (imageBytes k.cfg) = none →
      s.checkRange c (tileAddress m b o) (imageBytes k.cfg) true = (s1, .ok parts) →
      s.lsGranules c (tileAddress m b o) (imageBytes k.cfg) = .ok l → l.any s1.full = false →
      TileWord s u m c (.tstk n b o)
        ((s1.writeParts ((s1.image k).toNat % 2 ^ (8 * imageBytes k.cfg)) parts).upd u fun x => x.retire .s)
  | cbld (b o loc s1 parts) : m.place = some loc → (tileAddress m b o).toNat % 16 = 0 →
      s.checkRange c (tileAddress m b o) 1024 false = (s1, .ok parts) →
      TileWord s u m c (.cbld b o) (State.upd { s1 with
        books := tabSet s1.books 0 (locCore loc) (BitVec.ofNat 8192 (s1.readParts parts)) } u fun x => x.retire .l)
  | tldt (n b o k t) : m.typedTile .l n = some k →
      k.ok [0x0, 0x1, 0x2, 0x3, 0x4, 0x8, 0x9, 0xC, 0xD] = true → k.rows % 4 = 0 → k.cols % 16 = 0 →
      (tileAddress m b o).toNat % 16 = 0 → m.progAt m.l.pos = none →
      TldtRuns u c k (tileAddress m b o) m.l.pos (k.cols / 16) (k.rows / 4 * (k.cols / 16)) 0 0 s t →
      TileWord s u m c (.tldt n b o) t
  | tmov (st p q x s1 s2 from_ to_) : s.padOutside c (m.reg p) 4096 = none → s.padOutside c (m.reg q) 4096 = none →
      (m.reg p).toNat % 16 = 0 → (m.reg q).toNat % 16 = 0 → apartOrSame (m.reg p) (m.reg q) →
      s.checkRange c (m.reg q) 4096 false = (s1, .ok from_) → s1.checkRange c (m.reg p) 4096 true = (s2, .ok to_) →
      TileWord s u m c (.tmov st p q x)
        ((s2.writeParts (s2.readParts from_) to_).upd u fun k => k.retire (if st then .s else .l))

/-- An index walk whose checks pass and that ends without a fault or a wait, with the state afterwards (R380 to R385, R414 to
R419, R452 to R454). -/
inductive WalkWordRuns (s : State) (u : Nat) (m : Strand) (c : Client) : Instr → State → Prop where
  | gather (p q r x l s2 e2) : fld (m.reg (r + 1)) 11 0 ≠ 0 → fld (m.reg (r + 1)) 31 12 ≠ 0 → fld (m.reg (r + 1)) 63 32 ≠ 0 →
      (m.reg p).toNat % 16 = 0 → (m.reg r).toNat % 16 = 0 → (m.reg q).toNat % 4 = 0 →
      s.padOutside c (m.reg p) (fld (m.reg (r + 1)) 31 12 * (16 * fld (m.reg (r + 1)) 11 0)) = none →
      overlaps (m.reg p).toNat (fld (m.reg (r + 1)) 31 12 * (16 * fld (m.reg (r + 1)) 11 0)) (m.reg q).toNat
        (4 * fld (m.reg (r + 1)) 31 12) = false →
      overlaps (m.reg p).toNat (fld (m.reg (r + 1)) 31 12 * (16 * fld (m.reg (r + 1)) 11 0)) (m.reg r).toNat
        (fld (m.reg (r + 1)) 63 32 * (16 * fld (m.reg (r + 1)) 11 0)) = false →
      indexLoop c (m.reg q) (fld (m.reg (r + 1)) 63 32) l (gatherRow c (m.reg p) (m.reg r) (16 * fld (m.reg (r + 1)) 11 0))
        (fld (m.reg (r + 1)) 31 12 - m.walkStart .l) (m.walkStart .l) s = (s2, e2, .done) →
      WalkWordRuns s u m c (.gather p q r x l) (s2.upd u fun k => { (k.dropProg m.l.pos).retire .l with taker := none })
  | gred (p q r x l f o n s1 last s2 b2) : fld (m.reg (r + 1)) 11 0 ≠ 0 → fld (m.reg (r + 1)) 31 12 ≠ 0 →
      fld (m.reg (r + 1)) 63 32 ≠ 0 → (m.reg p).toNat % 16 = 0 → (m.reg r).toNat % 16 = 0 → (m.reg q).toNat % 4 = 0 →
      fld (m.reg p) 56 52 = 31 → fld (m.reg p) 63 57 = 0 → n = 16 * fld (m.reg (r + 1)) 11 0 / (if f then 2 else 4) →
      s.padOutside c (m.reg p) (fld (m.reg (r + 1)) 31 12 * (4 * n)) = none →
      s.readVa c (m.reg q + wd (4 * fld (m.reg (r + 1)) 31 12)) 4 = (s1, .ok last) →
      overlaps (m.reg p).toNat (fld (m.reg (r + 1)) 31 12 * (4 * n)) (m.reg q).toNat
        (4 * (fld (m.reg (r + 1)) 31 12 + 1 + last)) = false →
      overlaps (m.reg p).toNat (fld (m.reg (r + 1)) 31 12 * (4 * n)) (m.reg r).toNat
        (fld (m.reg (r + 1)) 63 32 * (16 * fld (m.reg (r + 1)) 11 0)) = false →
      gredBags c (m.reg p) (m.reg q) (m.reg q + wd (4 * (fld (m.reg (r + 1)) 31 12 + 1))) (m.reg r)
        (fld (m.reg (r + 1)) 63 32) (16 * fld (m.reg (r + 1)) 11 0) n l f o m.ieee
        (fld (m.reg (r + 1)) 31 12 - m.walkStart .l) (m.walkStart .l) s1 = (s2, b2, .done) →
      WalkWordRuns s u m c (.gred p q r x l f o) (s2.upd u fun k => { (k.dropProg m.l.pos).retire .l with taker := none })
  | gredDevice (p q r x l f o n s1 last s2 b2) : fld (m.reg (r + 1)) 11 0 ≠ 0 → fld (m.reg (r + 1)) 31 12 ≠ 0 →
      fld (m.reg (r + 1)) 63 32 ≠ 0 → (m.reg p).toNat % 16 = 0 → (m.reg r).toNat % 16 = 0 → (m.reg q).toNat % 4 = 0 →
      fld (m.reg p) 56 52 ≠ 31 → n = 16 * fld (m.reg (r + 1)) 11 0 / (if f then 2 else 4) →
      s.endCheck c (m.reg p) = none →
      s.endCheck c (m.reg p + wd (fld (m.reg (r + 1)) 31 12 * (4 * n) - 1)) = none →
      s.readVa c (m.reg q + wd (4 * fld (m.reg (r + 1)) 31 12)) 4 = (s1, .ok last) →
      overlaps (m.reg p).toNat (fld (m.reg (r + 1)) 31 12 * (4 * n)) (m.reg q).toNat
        (4 * (fld (m.reg (r + 1)) 31 12 + 1 + last)) = false →
      overlaps (m.reg p).toNat (fld (m.reg (r + 1)) 31 12 * (4 * n)) (m.reg r).toNat
        (fld (m.reg (r + 1)) 63 32 * (16 * fld (m.reg (r + 1)) 11 0)) = false →
      gredBags c (m.reg p) (m.reg q) (m.reg q + wd (4 * (fld (m.reg (r + 1)) 31 12 + 1))) (m.reg r)
        (fld (m.reg (r + 1)) 63 32) (16 * fld (m.reg (r + 1)) 11 0) n l f o m.ieee
        (fld (m.reg (r + 1)) 31 12 - m.walkStart .l) (m.walkStart .l) s1 = (s2, b2, .done) →
      WalkWordRuns s u m c (.gred p q r x l f o) (s2.upd u fun k => { (k.dropProg m.l.pos).retire .l with taker := none })
  | scat (p q r x l k t s2 e2) : 1 ≤ k.nidx → k.nidx ≤ 64 → 1 ≤ k.ntab → 1 ≤ k.pitch → fld (m.reg r) 15 13 = 0 →
      m.typedTile .s (BitVec.ofNat 6 (m.reg r).toNat) = some t → t.cols * cfgWidth t.fmt % 128 = 0 → k.nidx ≤ t.rows →
      k.rb ≤ k.pitch → k.base.toNat % 16 = 0 → k.list.toNat % 4 = 0 →
      k = ⟨m.reg p, m.reg q, fld (m.reg r) 12 6, fld (m.reg r) 47 16, 16 * fld (m.reg r) 63 48, cfgWidth t.fmt,
        t.cols * cfgWidth t.fmt / 8⟩ →
      indexLoop c k.list k.ntab l (scatRow u c k t (s.image t)) (k.nidx - m.walkStart .s) (m.walkStart .s) s =
        (s2, e2, .done) →
      WalkWordRuns s u m c (.scat p q r x l) (s2.upd u fun n => (n.dropProg m.s.pos).retire .s)
  | scata (p q r x kind l k t s2 e2 w) : 1 ≤ k.nidx → k.nidx ≤ 64 → 1 ≤ k.ntab → 1 ≤ k.pitch → fld (m.reg r) 15 13 = 0 →
      m.typedTile .s (BitVec.ofNat 6 (m.reg r).toNat) = some t → w = (if kind = 1 then 64 else 32) →
      (if kind = 0 then [0x0, 0x1] else if kind = 1 then [0x0] else [0xC]).contains t.fmt = true → t.scaled = false →
      t.cols * w % 128 = 0 → k.nidx ≤ t.rows → k.rb ≤ k.pitch → k.base.toNat % 16 = 0 → k.list.toNat % 4 = 0 →
      k = ⟨m.reg p, m.reg q, fld (m.reg r) 12 6, fld (m.reg r) 47 16, 16 * fld (m.reg r) 63 48, w, t.cols * w / 8⟩ →
      indexLoop c k.list k.ntab l (scataRow u c k kind (s.decayOf m) m.ieee t (s.image t)) (k.nidx - m.walkStart .s)
        (m.walkStart .s) s = (s2, e2, .done) →
      WalkWordRuns s u m c (.scata p q r x kind l) (s2.upd u fun n => (n.dropProg m.s.pos).retire .s)
  | upd (p q r x f l k t n s2 e2) : 1 ≤ n → n ≤ 64 → n = fld (m.reg r) 12 6 → 1 ≤ k.ntab → 1 ≤ k.pitch →
      bit (m.reg r) 15 = false → (f = 0 → m.reg (r + 1) = 0 ∧ fld (m.reg (r + 2)) 63 32 = 0) →
      m.typedTile .s (BitVec.ofNat 6 (m.reg r).toNat) = some t → t.ok [0x0, 0x1] = true → n ≤ t.rows →
      t.cols * k.pw % 16 = 0 → t.cols * k.pw ≤ k.pitch → t.cols * k.mw % 16 = 0 → k.base.toNat % 16 = 0 →
      (f ≠ 0 → k.mbase.toNat % 16 = 0) → (m.reg q).toNat % 4 = 0 →
      k = ⟨m.reg p, m.reg (r + 1), f, bit (m.reg r) 13, bit (m.reg r) 14, fld (m.reg r) 47 16, 16 * fld (m.reg r) 63 48,
        dec32 (fld (m.reg (r + 2)) 31 0), dec32 (fld (m.reg (r + 2)) 63 32), m.ieee⟩ →
      indexLoop c (m.reg q) k.ntab l (updRow u c k (s.decayOf m) t (s.image t)) (n - m.walkStart .s) (m.walkStart .s) s =
        (s2, e2, .done) →
      WalkWordRuns s u m c (.upd p q r x f l) (s2.upd u fun n => (n.dropProg m.s.pos).retire .s)

/-! ### Where tile words, index walks, drains and chunks store -/

/-- A byte of some of the pieces, each an address and a number of bytes. -/
def Written (l : List (Nat × Nat)) (x : Nat) : Prop := ∃ p, p ∈ l ∧ p.1 ≤ x ∧ x < p.1 + p.2

/-- The pieces of a checked range: none where the range is not granted. -/
def spotsOf : RangeRes → List (Nat × Nat)
  | .ok l => l.map fun p => (p.addr, p.bytes)
  | _ => []

/-- Where a tile's image is stored (R436, R437). -/
def tileSpots (s : State) (m : Strand) (c : Client) (n b : Field) (o : BitVec 12) : List (Nat × Nat) :=
  match m.typedTile .s n with
  | none => []
  | some k => spotsOf (s.checkRange c (tileEa m b o) (imageBytes k.cfg) true).2

/-- The words that store a tile or move 4 KiB, with the pieces that they store to (R437, R438, R443). -/
inductive TileStore (s : State) (m : Strand) (c : Client) : Instr → List (Nat × Nat) → Prop where
  | tst (n b o) : TileStore s m c (.tst n b o) (tileSpots s m c n b o)
  | tstk (n b o) : TileStore s m c (.tstk n b o) (tileSpots s m c n b o)
  | tmov (st p q x) : TileStore s m c (.tmov st p q x)
      (spotsOf ((s.checkRange c (m.reg q) 4096 false).1.checkRange c (m.reg p) 4096 true).2)

/-- The pieces that an index walk stores to, entry by entry, where `spots` gives those of an entry in the state in which its row
is written (R246). -/
def walkSpots (c : Client) (list : Word) (ntab : Nat) (policy : BitVec 2) (body : State → Nat → Option Nat → State × PartEnd)
    (spots : State → Nat → Option Nat → List (Nat × Nat)) : Nat → Nat → State → List (Nat × Nat)
  | 0, _, _ => []
  | todo + 1, e, s =>
    match s.readVa c (list + wd (4 * e)) 4 with
    | (s1, .ok x) =>
      let go := fun (row : Option Nat) => spots s1 e row ++ (match body s1 e row with
        | (s2, .done) => walkSpots c list ntab policy body spots todo (e + 1) s2
        | _ => [])
      if x < ntab then go (some x)
      else match policy.toNat with
        | 0 => []
        | 1 => go none
        | 2 => walkSpots c list ntab policy body spots todo (e + 1) s1
        | _ => go (some (ntab - 1))
    | _ => []

/-- Where an entry of GATHER stores (R381): its destination, and of it the part that a row stored whose source fails midway. -/
def gatherSpots (c : Client) (dst base : Word) (rb : Nat) (s : State) (e : Nat) (row : Option Nat) : List (Nat × Nat) :=
  match s.checkRange c (dst + wd (e * rb)) rb true with
  | (s1, .ok out) => spotsOf (.ok out) ++ (match row with
    | none => []
    | some x => match s1.checkRange c (base + wd (x * rb)) rb false with
      | (s2, .fault _ a _) => spotsOf (s2.checkRange c (dst + wd (e * rb)) (a - (base + wd (x * rb))).toNat true).2
      | _ => [])
  | _ => []

/-- The operands of SCAT and SCATA for elements of `w` bits (R414). -/
def scatterOf (m : Strand) (p q r : Field) (w cols : Nat) : Scatter :=
  ⟨m.reg p, m.reg q, fld (m.reg r) 12 6, fld (m.reg r) 47 16, 16 * fld (m.reg r) 63 48, w, cols * w / 8⟩

/-- Where an entry of SCAT stores: its table row, but for the pieces that are refused (R415, R419). -/
def scatSpots (c : Client) (k : Scatter) (s : State) (_e : Nat) (row : Option Nat) : List (Nat × Nat) :=
  let va := (k.base.toNat + k.pitch * row.getD 0) % 2 ^ 64
  (s.rowPieces c (cut (wd va) k.rb)).2.filterMap fun p => match p.res with
    | .ok d => some (d.addr, p.bytes)
    | _ => none

/-- Where the elements of `n` bytes from `va` on lie, for those that are not refused. -/
def elemSpots (l : List RowPiece) (own : DieKey) (va n cols : Nat) : List (Nat × Nat) :=
  (List.range cols).filterMap fun j => match spotOf l own (va + n * j) with
    | .at_ a _ => some (a, n)
    | .refused _ _ => none

/-- Where an entry of SCATA stores: the elements of its table row (R415). -/
def scataSpots (c : Client) (k : Scatter) (cols : Nat) (s : State) (_e : Nat) (row : Option Nat) : List (Nat × Nat) :=
  let va := (k.base.toNat + k.pitch * row.getD 0) % 2 ^ 64
  elemSpots (s.rowPieces c (cut (wd va) k.rb)).2 c.die va (k.width / 8) cols

/-- The operands of UPD (R452). -/
def updateOf (m : Strand) (p r : Field) (f : BitVec 2) : Update :=
  ⟨m.reg p, m.reg (r + 1), f, bit (m.reg r) 13, bit (m.reg r) 14, fld (m.reg r) 47 16, 16 * fld (m.reg r) 63 48,
    dec32 (fld (m.reg (r + 2)) 31 0), dec32 (fld (m.reg (r + 2)) 63 32), m.ieee⟩

/-- Where an entry of UPD stores: the parameters and the moments of its row (R453). -/
def updSpots (c : Client) (k : Update) (cols : Nat) (s : State) (_e : Nat) (row : Option Nat) : List (Nat × Nat) :=
  let pv := (k.base.toNat + k.pitch * row.getD 0) % 2 ^ 64
  let mv := (k.mbase.toNat + row.getD 0 * (k.mw * cols)) % 2 ^ 64
  let po := s.rowPieces c (cut (wd pv) (k.pw * cols))
  elemSpots po.2 c.die pv k.pw cols ++
    if k.mw = 0 then [] else elemSpots (po.1.rowPieces c (cut (wd mv) (k.mw * cols))).2 c.die mv k.mw cols

/-- The index walks that store rows, with the pieces that they store to from the state in which the word issues or goes on
(R380, R414, R452). -/
inductive WalkStore (s : State) (u : Nat) (m : Strand) (c : Client) : Instr → List (Nat × Nat) → Prop where
  | gather (p q r x l) : WalkStore s u m c (.gather p q r x l)
      (walkSpots c (m.reg q) (fld (m.reg (r + 1)) 63 32) l (gatherRow c (m.reg p) (m.reg r) (16 * fld (m.reg (r + 1)) 11 0))
        (gatherSpots c (m.reg p) (m.reg r) (16 * fld (m.reg (r + 1)) 11 0))
        (fld (m.reg (r + 1)) 31 12 - m.walkStart .l) (m.walkStart .l) s)
  | scat (p q r x l t k) : m.typedTile .s ((m.reg r).extractLsb' 0 6) = some t →
      k = scatterOf m p q r (cfgWidth t.fmt) t.cols →
      WalkStore s u m c (.scat p q r x l) (walkSpots c k.list k.ntab l (scatRow u c k t (s.image t)) (scatSpots c k)
        (k.nidx - m.walkStart .s) (m.walkStart .s) s)
  | scata (p q r x kind l t k) : m.typedTile .s ((m.reg r).extractLsb' 0 6) = some t →
      k = scatterOf m p q r (if kind = 1 then 64 else 32) t.cols →
      WalkStore s u m c (.scata p q r x kind l) (walkSpots c k.list k.ntab l
        (scataRow u c k kind (s.decayOf m) m.ieee t (s.image t)) (scataSpots c k t.cols) (k.nidx - m.walkStart .s) (m.walkStart .s) s)
  | upd (p q r x f l t k) : m.typedTile .s ((m.reg r).extractLsb' 0 6) = some t → k = updateOf m p r f →
      WalkStore s u m c (.upd p q r x f l) (walkSpots c (m.reg q) k.ntab l (updRow u c k (s.decayOf m) t (s.image t))
        (updSpots c k t.cols) (fld (m.reg r) 12 6 - m.walkStart .s) (m.walkStart .s) s)
  | noTile (i p q r) : ((∃ x l, i = .scat p q r x l) ∨ (∃ x k l, i = .scata p q r x k l) ∨ ∃ x f l, i = .upd p q r x f l) →
      m.typedTile .s ((m.reg r).extractLsb' 0 6) = none → WalkStore s u m c i []

/-- The pieces that a drain stores to: its rows from one on, and the trailer (R335). -/
def drainSpots (u : Nat) (c : Client) (core : Nat) (dst desc : Word) (mode : Mode) (ieee : Bool) :
    Nat → DrainAt → State → List (Nat × Nat)
  | 0, _, s => spotsOf (s.checkRange c (wd (ceilDiv (dst.toNat + (fld desc 12 6 - 1) * fld desc 63 32 +
      fld desc 19 13 * fmtWidth (fld desc 23 20) / 8) 16 * 16)) 16 true).2
  | todo + 1, d, s =>
    match s.checkRange c (dst + wd (d.row * fld desc 63 32)) (fld desc 19 13 * fmtWidth (fld desc 23 20) / 8) true with
    | (s1, .ok parts) => spotsOf (.ok parts) ++ (match s1.strand u with
      | none => []
      | some m =>
        let acc := s1.drainRow core desc mode ieee m.lanes d.row
        drainSpots u c core dst desc mode ieee todo ⟨d.row + 1, d.ovf + acc.ovf, d.iovf || acc.iovf⟩
          ((s1.writeParts (packNat (fmtWidth (fld desc 23 20)) acc.out.reverse) parts).upd u fun k => { k with lanes := acc.lanes }))
    | _ => []

/-- What no store of a tile word, an index walk, a drain or a chunk changes: tiles, banks, codebooks, other strands, and of its
own strand the registers, tokens, masks, window, configurations, entries and identity. -/
def StoreFrame (s t : State) (u : Nat) (m : Strand) : Prop :=
  t.tiles = s.tiles ∧ t.accs = s.accs ∧ t.books = s.books ∧ (∀ v, v ≠ u → t.strand v = s.strand v) ∧
  ∃ n, t.strand u = some n ∧ n.g = m.g ∧ n.tok = m.tok ∧ n.masks = m.masks ∧ n.win = m.win ∧ n.base = m.base ∧
    n.size = m.size ∧ n.nrot = m.nrot ∧ n.rrb = m.rrb ∧ n.tcfg = m.tcfg ∧ n.rnd = m.rnd ∧ n.ieee = m.ieee ∧
    n.bindA = m.bindA ∧ n.bindB = m.bindB ∧ n.dmap = m.dmap ∧ n.stepv = m.stepv ∧ n.rank = m.rank ∧ n.gang = m.gang ∧
    n.member = m.member ∧ n.priv = m.priv ∧ n.place = m.place

/-! ### Where switch-outs, restores and boundaries store -/

/-- Where an access of one unit stores: nowhere if it is not granted. -/
def unitSpot (s : State) (c : Client) (va : Word) (n : Nat) : List (Nat × Nat) := match s.access c va n true with
  | (_, .ok t) => [(t.addr, n)]
  | _ => []

/-- Where a tile slot and a bank slot of the shadow store are written back: in their owner's context image (R232, R233). -/
def tileBackSpot (s : State) (k : Nat) : List (Nat × Nat) := match tabGet s.shadowTile k with
  | none => []
  | some e => match s.rank? e.rank with
    | none => []
    | some r => unitSpot s (r.client e.rank) (r.imageVa e.image (tileOff e.core e.name)) 4096

def bankBackSpot (s : State) (k : Nat) : List (Nat × Nat) := match tabGet s.shadowAcc k with
  | none => []
  | some e => match s.rank? e.rank with
    | none => []
    | some r => unitSpot s (r.client e.rank) (r.imageVa e.image (bankOff e.core e.name)) 8192

/-- Where several slots are written back, one after another, with the state in which the last one has been. -/
def backSpots (spot : State → Nat → List (Nat × Nat)) (drop : State → Nat → Try State) : List Nat → State → List (Nat × Nat) × State
  | [], s => ([], s)
  | k :: rest, s => match drop s k with
    | .error _ => (spot s k, s)
    | .ok s1 => (spot s k ++ (backSpots spot drop rest s1).1, (backSpots spot drop rest s1).2)

/-- Where the switch-out of a gang's strands stores: the former contents of the shadow slots that they take, and their bank frames
(R92, R232, R233). -/
def leaveSpots (gid : Nat) (g : Gang) (image : Nat) : List Nat → State → List (Nat × Nat)
  | [], _ => []
  | u :: rest, s => match s.strand u with
    | none => leaveSpots gid g image rest s
    | some m =>
      if m.gang ≠ gid ∨ m.place = none then leaveSpots gid g image rest s else
        let core := locCore (m.place.getD 0)
        let banks := s.ownedBanks core u
        let tiles := backSpots tileBackSpot State.dropTile ((natRange m.base m.size).map (unitKey core)) s
        let accs := backSpots bankBackSpot State.dropAcc (banks.map (unitKey core)) tiles.2
        tiles.1 ++ accs.1 ++ match s.saveUnits u m g image core with
          | .error _ => []
          | .ok s1 => (match s1.rank? m.rank with
            | none => []
            | some r => unitSpot s1 (r.client m.rank) (r.bankFrame image m.member) 0x8000) ++
              match s1.saveFrame u (m.leave banks) image with
              | .error _ => []
              | .ok s2 => leaveSpots gid g image rest ((s2.dropArray u).setStrand u (m.leave banks))

/-- Where the end of a save or of a restore of a segment stores, if a holder has begun it: the frame of the segment's owner, or the
segment (R157, R160, R232). -/
def segSpots (s : State) (cs : Bool) (rank holder k : Nat) (x : SegRec) : List (Nat × Nat) :=
  match x.state with
  | .saving r h _ _ => if r ≠ rank ∨ h ≠ holder then [] else match s.segFrame cs x with
    | none => []
    | some (q, frame, fePage) =>
      unitSpot s (q.client x.rank) frame 65536 ++ match fePage, s.access (q.client x.rank) frame 65536 true with
        | some page, (s1, .ok t) =>
          (unitSpot (s1.copyBytes (segAddr cs k) t.addr 65536) (q.client x.rank) page 4096).map fun p => (p.1, 512)
        | _, _ => []
  | .restoring => if x.rank ≠ rank ∨ x.holder ≠ holder then [] else [(segAddr cs k, 65536)]
  | _ => []

/-- Where `State.settleSegs` stores, segment after segment. -/
def settleSpots (cs : Bool) (rank holder : Nat) : List (Nat × SegRec) → State → List (Nat × Nat)
  | [], _ => []
  | (k, x) :: rest, s => segSpots s cs rank holder k x ++ match s.settleSegs cs rank holder [(k, x)] with
    | .ok s1 => settleSpots cs rank holder rest s1
    | .error _ => []

/-- Where `State.endMoves` stores. -/
def moveSpots (gid : Nat) (g : Gang) (s : State) : List (Nat × Nat) :=
  settleSpots false g.rank gid s.lsSeg s ++ match s.settleSegs false g.rank gid s.lsSeg with
    | .ok x => settleSpots true g.rank g.lp x.csSeg x
    | .error _ => []

/-- Where a table word is followed or a new table is made for it (R166): nowhere, or the table and the word. -/
def tableSpots (s : State) (d : DieKey) (lpddr : Bool) (at_ parts : Nat) : List (Nat × Nat) :=
  if tblV (s.physWord d lpddr at_) then [] else match (s.die d).takeTable parts with
    | none => []
    | some (lp, part, _) => [(tierAddr lp d.toNat (part * 256), parts * 256), (tierAddr lpddr d.toNat at_, 8)]

/-- Where the mapping of a 64 KiB leaf writes: the tables that it needs, and the leaf's word. -/
def mapSpots (s : State) (d : DieKey) (root : Word) (off : Nat) : List (Nat × Nat) :=
  let a3 := tblAddr root + 8 * (off / 2 ^ 39 % 8192)
  tableSpots s d (tblTier root) a3 32 ++ match s.tableAt d (tblTier root) a3 32 with
    | none => []
    | some (s1, t2) =>
      let a2 := tblAddr t2 + 16 * slotIndex off 2 + 8
      tableSpots s1 d (tblTier t2) a2 32 ++ match s1.tableAt d (tblTier t2) a2 32 with
        | none => []
        | some (s2, t1) =>
          let a1 := tblAddr t1 + 16 * slotIndex off 1 + 8
          tableSpots s2 d (tblTier t1) a1 1 ++ match s2.tableAt d (tblTier t1) a1 1 with
            | none => []
            | some (_, t0) => [(tierAddr (tblTier t0) d.toNat (tblAddr t0 + 8 * (off / 65536 % 32)), 8)]

/-- Where the pages of a shard are written: each into a frame of its own, with the tables that map it (R276). -/
def pageSpots (d : DieKey) (root : Word) : List (Nat × BitVec 524288 × Word) → State → List (Nat × Nat)
  | [], _ => []
  | (page, bytes, leaf) :: rest, s => match (s.die d).takeFrames (leafTier leaf = 1) 1 with
    | none => []
    | some (f, v) =>
      let a := tierAddr (leafTier leaf = 1) d.toNat (f * 65536)
      let s1 := ((s.setDie d v).zero a 65536).wr a 65536 bytes.toNat
      (a, 65536) :: mapSpots s1 d root (page * 65536) ++ match s.putPages d root [(page, bytes, leaf)] with
        | none => []
        | some s2 => pageSpots d root rest s2

/-- Where the restore of several ranks writes: their new level-3 tables, and their pages (R276). -/
def restoreSpots : List (Nat × Rank × List (BitVec 524288)) → State → List (Nat × Nat)
  | [], _ => []
  | (key, r, shard) :: rest, s =>
    let s0 := match r.precopy with
      | none => s
      | some p => s.giveBack p
    (match (s0.die r.home).takeTable 256 with
      | none => []
      | some (lp, part, _) => [(tierAddr lp r.home.toNat (part * 256), 65536)]) ++
    (match s0.newSpace r.home r.job r.vrank.toNat with
      | none => []
      | some (s1, root) => pageSpots r.home root (shardPages shard) s1) ++
    match s.restoreRank key r shard with
      | none => []
      | some s1 => restoreSpots rest s1

/-- A byte of a package's notification ring (R281). -/
def InRing (s : State) (x : Nat) : Prop :=
  ∃ (p : Pkg) (j : Nat), (j = (s.pkg p).nqtail.toNat ∨ j < (s.pkg p).nqsize.toNat) ∧
    hostAddr p.toNat ((s.pkg p).nqbase.toNat + 16 * j) ≤ x ∧ x < hostAddr p.toNat ((s.pkg p).nqbase.toNat + 16 * j) + 16

/-- A byte of the shard that an open snapshot of a rank fills, or of its copy at the buddy package (R273 to R275). -/
def InShard (r : Rank) (x : Nat) : Prop :=
  ∃ n d, r.snap = some n ∧
    (d = regionDie n.req.base ∨
      d = BitVec.setWidth 12 (buddyOf (pkgOf (regionDie n.req.base)) n.req.member) ||| (regionDie n.req.base &&& 0xC00)) ∧
    lpddrAddr d.toNat (regionOff n.req.base) ≤ x ∧ x < lpddrAddr d.toNat (regionOff n.req.base) + 65536 *
      max (n.next + n.todo.length) (headUnits (n.copied.length + n.todo.length) n.image.length)

/-! ### Asynchronous commands -/

/-- A command is issued into a slot (R148, R358): PENDING counts it, and it is the last in the order of issue. -/
def Issued (s : State) (u : Nat) (m : Strand) (t : Stream) (c : Client) (k : Cmd) (s2 : State) : Prop :=
  m.streamQuiet t = true ∧ ∃ slot s1, s.freeSlot m = some slot ∧ s.counterUpd c k.counter Arrival.issue = .ok s1 ∧
    s2 = { s1.upd u fun n => { n with cmds := tabPut n.cmds slot { k with order := s1.ids } } with ids := s1.ids + 1 }

/-- The stream of a copy. -/
def copyStream (st : Bool) : Stream := if st then .s else .l

/-- The copies, under the conditions on which each is issued, with the state afterwards (R358, R365, R367). -/
inductive CopyWord (s : State) (u : Nat) (m : Strand) (c : Client) : Instr → State → Prop where
  | cpy (st p q r x s2) : fld (m.reg r) 31 0 ≠ 0 → fld (m.reg r) 31 0 % 16 = 0 → fld (m.reg r) 63 53 = 0 →
      s.counterCheck m.gang (lsVa (fld (m.reg r) 52 32)) = none → (m.reg p).toNat % 16 = 0 → (m.reg q).toNat % 16 = 0 →
      overlaps (m.reg p).toNat (fld (m.reg r) 31 0) (m.reg q).toNat (fld (m.reg r) 31 0) = false →
      s.endChecks c [(m.reg p, fld (m.reg r) 31 0), (m.reg q, fld (m.reg r) 31 0)] = none →
      Issued s u m (copyStream st) c (Cmd.new m (.cpy (fld (m.reg r) 31 0)) (copyStream st) (m.reg p) (m.reg q)
        (lsVa (fld (m.reg r) 52 32)) x) s2 →
      CopyWord s u m c (.cpy st p q r x) (s2.upd u fun n => n.retire (copyStream st))
  | cpyt (st p q r x w h sp dp s2) : w = fld (m.reg r) 15 0 → h = fld (m.reg r) 31 16 → sp = fld (m.reg (r + 1)) 31 0 →
      dp = fld (m.reg (r + 1)) 63 32 → w ≠ 0 → w % 16 = 0 → h ≠ 0 → fld (m.reg r) 63 53 = 0 → sp % 16 = 0 → w ≤ sp →
      dp % 16 = 0 → w ≤ dp → s.counterCheck m.gang (lsVa (fld (m.reg r) 52 32)) = none → (m.reg p).toNat % 16 = 0 →
      (m.reg q).toNat % 16 = 0 → rowsMeet (m.reg q).toNat (m.reg p).toNat w h sp dp = false →
      s.endChecks c [(m.reg p, (h - 1) * dp + w), (m.reg q, (h - 1) * sp + w)] = none →
      Issued s u m (copyStream st) c (Cmd.new m (.cpyt w h sp dp) (copyStream st) (m.reg p) (m.reg q)
        (lsVa (fld (m.reg r) 52 32)) x) s2 →
      CopyWord s u m c (.cpyt st p q r x) (s2.upd u fun n => n.retire (copyStream st))

/-- The collective words (R355, R359, R361, R368) with their kind. -/
inductive CollectiveForm : Instr → CmdOp → Field → Field → Field → Prop where
  | car (p q r x) : CollectiveForm (.car p q r x) .car p q r
  | crs (p q r x) : CollectiveForm (.crs p q r x) .crs p q r
  | cag (p q r x) : CollectiveForm (.cag p q r x) .cag p q r
  | cbc (p q r x) : CollectiveForm (.cbc p q r x) .cbc p q r

/-- The command of a collective word at a member that finds itself at a position of its communicator (R260, R357). -/
def collCommand (m : Strand) (rk : Rank) (op : CmdOp) (p q r : Field) (pos : Nat) : Cmd :=
  { Cmd.new m op .s (m.reg p) (m.reg q) (lsVa (fld (m.reg r) 46 26)) false with
    head := some (collHead (rk.comm (fld (m.reg r) 5 0)) (fld (m.reg r) 5 0) (collOp op) (op == .car || op == .crs) (m.reg r)
      (m.reg (r + 1)))
    pos := some pos
    begun := false }

/-- The rows of an asynchronous command of a resident strand, with the state afterwards (R148, R227, R241, R264). -/
inductive CommandRow (s : State) (loc : Loc) (slot : BitVec 6) (u : Nat) (m : Strand) (c : Client) (k : Cmd) :
    Instr → State → Prop where
  | arrive (ahead s1 l) : k.begun = true → k.next + BitVec.toNat ahead < k.chunks →
      k.ahead.contains (k.next + BitVec.toNat ahead) = false →
      ((k.withChunk (k.next + BitVec.toNat ahead)).next ≠ k.chunks ∨ k.left = 0) →
      s.chunk c k (k.next + BitVec.toNat ahead) = (s1, .ok l) →
      CommandRow s loc slot u m c k (.chunkArrive loc slot ahead) (s1.arrive u slot.toNat c k (k.next + BitVec.toNat ahead) l)
  | empty (ahead s1) : k.chunks = 0 → k.complete = true → s.counterUpd c k.counter Arrival.finish = .ok s1 →
      CommandRow s loc slot u m c k (.chunkArrive loc slot ahead) (s1.upd u fun n => { n with
        cmds := tabDel n.cmds slot.toNat })
  | fault (s1 e dst s2) : k.begun = true → k.next < k.chunks → s.chunk c k k.next = (s1, .fault e dst) →
      s1.chunkFails u slot.toNat c k e dst = .ok s2 → CommandRow s loc slot u m c k (.chunkFault loc slot) s2
  | member (h r s1 e s2) : k.head = some h → k.begun = false → s.rank? m.rank = some r →
      s.roster r m.rank h.comm = (s1, .bad e) → s1.cmdFault u slot.toNat c k e true k.dst = .ok s2 →
      CommandRow s loc slot u m c k (.chunkFault loc slot) s2
  | frameHeld (s1 e dst s2) : k.begun = true → k.next < k.chunks → s.chunk c k k.next = (s1, .fault e dst) →
      s1.chunkFails u slot.toNat c k e dst = .error s2 → CommandRow s loc slot u m c k (.chunkFault loc slot) (s1.asksOf s2)
  | relocate (core) : slot.toNat < 48 → ((∃ n, k.op = .cpy n) ∨ ∃ w h sp dp, k.op = .cpyt w h sp dp) → k.reloc = true →
      inLs k.dst = false →
      inLs k.src = false → coreOf (locCluster loc.toNat) (BitVec.toNat core) ≠ k.core → k.untouched = true →
      (((s.engineQueue k.core k.stream).filter Cmd.untouched).all fun j => k.order ≤ j.order) = true →
      s.engineIdle (coreOf (locCluster loc.toNat) (BitVec.toNat core)) k.stream = true →
      CommandRow s loc slot u m c k (.commandRelocate loc slot core) (s.upd u fun n => { n with
        cmds := tabPut n.cmds slot.toNat { k with core := coreOf (locCluster loc.toNat) (BitVec.toNat core) } })

/-- A relocatable GRED moves to an idle sibling (R227, R383): its operands lie outside LS, nothing of its core's engine waits
before it, and the sibling's engine is idle. -/
def GredMoves (s : State) (loc : Loc) (slot : BitVec 6) (core : BitVec 3) (u : Nat) (m : Strand) (l : List Word) : Prop :=
  48 ≤ slot.toNat ∧ s.onBank loc.toNat = some (u, m) ∧ s.gredHere m = some l ∧ l.any inLs = false ∧
  coreOf (locCluster loc.toNat) core.toNat ≠ locCore loc.toNat ∧
  (s.engineQueue (locCore loc.toNat) .l).filter Cmd.untouched = [] ∧
  s.engineIdle (coreOf (locCluster loc.toNat) core.toNat) .l = true

/-! ### Vector words -/

/-- The element words that round (R456, R464): tiles, rounding field, and the exact value in terms of a, b and d. -/
inductive FloatWord : Instr → Field → Field → Field → BitVec 3 → (Mode → Val → Val → Val → Val) → Prop where
  | vadd (d a b r) : FloatWord (.vadd d a b r) d a b r (fun q x y _ => Val.add (q == .rdn) x y)
  | vsub (d a b r) : FloatWord (.vsub d a b r) d a b r (fun q x y _ => Val.add (q == .rdn) x y.flip)
  | vmul (d a b r) : FloatWord (.vmul d a b r) d a b r (fun _ x y _ => x.mul y)
  | vfma (d a b r) : FloatWord (.vfma d a b r) d a b r (fun q x y z => Val.add (q == .rdn) (x.mul y) z)
  | vfms (d a b r) : FloatWord (.vfms d a b r) d a b r (fun q x y z => Val.add (q == .rdn) (x.mul y) z.flip)
  | vfnma (d a b r) : FloatWord (.vfnma d a b r) d a b r (fun q x y z => Val.add (q == .rdn) z (x.mul y).flip)

/-- An exact integer result, clamped to `w` signed bits under `.SAT` (R465). -/
def clampTo (w : Nat) (sat : Bool) (i : Int) : Int := if sat then max (-2 ^ (w - 1)) (min (2 ^ (w - 1) - 1) i) else i

/-- The element words that do not round (R455, R465, R467, R474): tiles, the formats they take, and an element's bits in terms
of the width, the format and the elements of a and b. -/
inductive BitsWord : Instr → Field → Field → Field → (Nat → Bool) → ((w : Nat) → Nat → Nat → Nat → BitVec w) → Prop where
  | vmin (d a b u q) : BitsWord (.vmin d a b u q) d a b
      (fun f => [0x0, 0x1, 0x2, 0xC, 0xD].contains f && !(u && [0x0, 0x1, 0x2].contains f))
      (fun w f x y => BitVec.ofNat w (pickElem f u q false x y))
  | vmax (d a b u q) : BitsWord (.vmax d a b u q) d a b
      (fun f => [0x0, 0x1, 0x2, 0xC, 0xD].contains f && !(u && [0x0, 0x1, 0x2].contains f))
      (fun w f x y => BitVec.ofNat w (pickElem f u q true x y))
  | vabs (d a) : BitsWord (.vabs d a) d a a (fun f => [0x0, 0x1, 0x2, 0xC, 0xD].contains f)
      (fun w f x _ => BitVec.ofNat w (absNeg f false x).r.bits)
  | vneg (d a) : BitsWord (.vneg d a) d a a (fun f => [0x0, 0x1, 0x2, 0xC, 0xD].contains f)
      (fun w f x _ => BitVec.ofNat w (absNeg f true x).r.bits)
  | viadd (d a b sat) : BitsWord (.viadd d a b sat) d a b (fun f => f = 0xC || f = 0xD)
      (fun w _ x y => BitVec.ofInt w (clampTo w sat ((BitVec.ofNat w x).toInt + (BitVec.ofNat w y).toInt)))
  | visub (d a b sat) : BitsWord (.visub d a b sat) d a b (fun f => f = 0xC || f = 0xD)
      (fun w _ x y => BitVec.ofInt w (clampTo w sat ((BitVec.ofNat w x).toInt - (BitVec.ofNat w y).toInt)))
  | vimul (d a b sat) : BitsWord (.vimul d a b sat) d a b (fun f => f = 0xC || f = 0xD)
      (fun w _ x y => BitVec.ofInt w (clampTo w sat ((BitVec.ofNat w x).toInt * (BitVec.ofNat w y).toInt)))
  | vshl (d a b) : BitsWord (.vshl d a b false) d a b (fun f => f = 0xC || f = 0xD) (fun w _ x y => BitVec.ofNat w x <<< y)
  | vshlI (d a b) : BitsWord (.vshl d a b true) d a a (fun f => f = 0xC || f = 0xD)
      (fun w _ x _ => BitVec.ofNat w x <<< b.toNat)
  | vshr (d a b) : BitsWord (.vshr d a b false) d a b (fun f => f = 0xC || f = 0xD) (fun w _ x y => BitVec.ofNat w x >>> y)
  | vshrI (d a b) : BitsWord (.vshr d a b true) d a a (fun f => f = 0xC || f = 0xD)
      (fun w _ x _ => BitVec.ofNat w x >>> b.toNat)
  | vsra (d a b) : BitsWord (.vsra d a b false) d a b (fun f => f = 0xC || f = 0xD)
      (fun w _ x y => (BitVec.ofNat w x).sshiftRight y)
  | vsraI (d a b) : BitsWord (.vsra d a b true) d a a (fun f => f = 0xC || f = 0xD)
      (fun w _ x _ => (BitVec.ofNat w x).sshiftRight b.toNat)

/-- Whether the element of such a word on `w` bits counts in OVF (R455, R465): a saturating sum, difference or product that lies
outside the signed numbers of `w` bits, and VABS or VNEG of the least integer. -/
def bitsOvf (i : Instr) (w f x y : Nat) : Bool :=
  let out := fun (v : Int) => decide (v < -2 ^ (w - 1) ∨ 2 ^ (w - 1) ≤ v)
  let (p, q) := ((BitVec.ofNat w x).toInt, (BitVec.ofNat w y).toInt)
  match i with
  | .viadd _ _ _ sat => sat && out (p + q)
  | .visub _ _ _ sat => sat && out (p - q)
  | .vimul _ _ _ sat => sat && out (p * q)
  | .vabs _ _ | .vneg _ _ => [0xC, 0xD].contains f && decide (p = -2 ^ (w - 1))
  | _ => false

/-- The LFSR value that element `k` uses (R110, R111): its lane's, stepped once for each earlier element of the lane under
RSTO. -/
def lfsrAt (m : Strand) (mode : Mode) (w k : Nat) : BitVec 32 :=
  (List.range (if mode = .rsto then k % (32 / w) else 0)).foldl (fun x _ => lfsrNext x) (lfsrOf m.lanes (laneOf w k))

/-- Bits `k * w` to `k * w + w - 1` of an image. -/
def element (img : BitVec 32768) (w k : Nat) : BitVec w := img.extractLsb' (k * w) w

/-- What a vector word leaves: memory, full-empty bits, banks, other tiles, other strands, and of its strand all but the lanes,
the destination's status word, the X stream and the passed words. -/
def VectorFrame (s t : State) (u : Nat) (m n : Strand) (k : Tile) : Prop :=
  t.mem = s.mem ∧ t.fe = s.fe ∧ t.accs = s.accs ∧ t.accOwner = s.accOwner ∧ t.books = s.books ∧ t.ranks = s.ranks ∧
  t.dies = s.dies ∧ t.msgs = s.msgs ∧ (∀ j, j ≠ k.key → tabAt t.tiles 0 j = tabAt s.tiles 0 j) ∧
  (∀ v, v ≠ u → t.strand v = s.strand v) ∧ t.strand u = some n ∧ n.g = m.g ∧ n.tok = m.tok ∧ n.masks = m.masks ∧
  n.tcfg = m.tcfg ∧ (∀ j, j ≠ k.slot → vget n.tstat 0 j = vget m.tstat 0 j) ∧ n.rnd = m.rnd ∧ n.ieee = m.ieee ∧
  n.lease = m.lease ∧ n.frame = m.frame ∧ n.errq = m.errq ∧ n.state = m.state ∧ n.c = m.c ∧ n.l = m.l ∧ n.s = m.s ∧
  n.x.pos = m.x.pos + 1 ∧ n.x.wait = .none

/-- The lane words (R457, R458, R466, R468, R470, R471, R473): destination, the lanes written, and the value of a lane. -/
inductive LaneWord (s : State) (m : Strand) : Instr → Field → (Nat → Bool) → (Nat → BitVec 32) → Prop where
  | vand (d a b ta tb) : m.tile .x a = some ta → m.tile .x b = some tb → LaneWord s m (.vand d a b) d m.mask.getLsbD
      (fun l => unit32 (s.image ta) l &&& unit32 (s.image tb) l)
  | vor (d a b ta tb) : m.tile .x a = some ta → m.tile .x b = some tb → LaneWord s m (.vor d a b) d m.mask.getLsbD
      (fun l => unit32 (s.image ta) l ||| unit32 (s.image tb) l)
  | vxor (d a b ta tb) : m.tile .x a = some ta → m.tile .x b = some tb → LaneWord s m (.vxor d a b) d m.mask.getLsbD
      (fun l => unit32 (s.image ta) l ^^^ unit32 (s.image tb) l)
  | vnot (d a ta) : m.tile .x a = some ta → LaneWord s m (.vnot d a) d m.mask.getLsbD (fun l => ~~~unit32 (s.image ta) l)
  | vsel (d a b ta tb) : m.tile .x a = some ta → m.tile .x b = some tb → LaneWord s m (.vsel d a b) d (fun _ => true)
      (fun l => if m.mask.getLsbD l then unit32 (s.image ta) l else unit32 (s.image tb) l)
  | vmov (d a ta) : m.tile .x a = some ta → LaneWord s m (.vmov d a) d m.mask.getLsbD (fun l => unit32 (s.image ta) l)
  | vmovG (d a) : LaneWord s m (.vmovG d a) d m.mask.getLsbD (fun _ => BitVec.setWidth 32 (m.reg a))
  | viota (d a) : LaneWord s m (.viota d a) d m.mask.getLsbD (fun l => BitVec.setWidth 32 (m.reg a) + BitVec.ofNat 32 l)
  | vbcr (d a c ta) : m.tile .x a = some ta → LaneWord s m (.vbcr d a c) d m.mask.getLsbD
      (fun l => unit32 (s.image ta) (64 * (l / 64) + c.toNat))
  | vbcc (d a r ta) : m.tile .x a = some ta → LaneWord s m (.vbcc d a r) d m.mask.getLsbD
      (fun l => unit32 (s.image ta) (64 * r.toNat + l % 64))
  | vrotr (d a n ta) : m.tile .x a = some ta → LaneWord s m (.vrotr d a n) d m.mask.getLsbD
      (fun l => unit32 (s.image ta) (64 * (l / 64) + (l % 64 + 64 - n.toNat) % 64))
  | vrotc (d a n ta) : m.tile .x a = some ta → LaneWord s m (.vrotc d a n) d m.mask.getLsbD
      (fun l => unit32 (s.image ta) (64 * ((l / 64 + 16 - n.toNat) % 16) + l % 64))
  | vrng (d a b sd f ta) : m.tile .x a = some ta → LaneWord s m (.vrng d a b sd f) d m.mask.getLsbD
      (fun l => BitVec.ofNat 32 (vrngLane (if sd then seedOf s m else (m.reg b).extractLsb' 32 32)
        (BitVec.setWidth 32 (m.reg b)) (BitVec.setWidth 32 (m.reg (b + 1))) f (unit32 (s.image ta) l)))

/-- `comb` of R469 on 32-bit lanes of FP32 (format 0) or INT32: op 0 SUM, 1 MAX, 2 MIN. -/
def combOf (f : Nat) (op : BitVec 2) (mode : Mode) (ieee : Bool) (x y : BitVec 32) : BitVec 32 :=
  if op = 0 then
    if f = 0 then BitVec.ofNat 32 (fFP32.rnd mode ieee 0 (Val.add (mode == .rdn) (dec32 x.toNat) (dec32 y.toNat))).bits
    else x + y
  else BitVec.ofNat 32 (pickElem f false false (op = 1) x.toNat y.toNat)

/-- The lane at place `j` of a group: of a vector row in column order, of a vector column in row order (R469). -/
def groupLane (col : Bool) (g j : Nat) : Nat := if col then 64 * j + g else 64 * g + j

/-- The lanes of a group: none for a lane that the top mask does not enable (R469). -/
def groupVals (col : Bool) (mask : BitVec 1024) (img : BitVec 32768) (g j : Nat) : Option (BitVec 32) :=
  if mask.getLsbD (groupLane col g j) then some (unit32 img (groupLane col g j)) else none

/-- A level of the pairwise tree (R469): v(i) of v(2i) and v(2i + 1). -/
def pairUp (comb : BitVec 32 → BitVec 32 → BitVec 32) (v : Nat → Option (BitVec 32)) (i : Nat) : Option (BitVec 32) :=
  match v (2 * i), v (2 * i + 1) with
  | some x, some y => some (comb x y)
  | some x, none => some x
  | none, y => y

/-- The pairwise tree over 2^levels lanes (R469). -/
def treeOf (comb : BitVec 32 → BitVec 32 → BitVec 32) : Nat → (Nat → Option (BitVec 32)) → Option (BitVec 32)
  | 0, v => v 0
  | levels + 1, v => treeOf comb levels (pairUp comb v)

/-- The accumulator of a serial scan before its lane `i` (R472). -/
def scanBefore (comb : BitVec 32 → BitVec 32 → BitVec 32) (v : Nat → Option (BitVec 32)) : Nat → Option (BitVec 32)
  | 0 => none
  | i + 1 => match v i, scanBefore comb v i with
    | none, acc => acc
    | some x, none => some x
    | some x, some acc => some (comb acc x)

/-- The identity of a scan (R472): +0 or 0 for SUM, −∞ or −2^31 for MAX, +∞ or 2^31 − 1 for MIN. -/
def identityOf (f : Nat) (op : BitVec 2) : BitVec 32 :=
  if op = 0 then 0
  else if f = 0 then (if op = 1 then 0xFF800000 else 0x7F800000)
  else if op = 1 then 0x80000000 else 0x7FFFFFFF

/-- What an enabled lane at place `i` receives from a scan (R472). -/
def scanAt (f : Nat) (op : BitVec 2) (ex : Bool) (comb : BitVec 32 → BitVec 32 → BitVec 32) (v : Nat → Option (BitVec 32))
    (i : Nat) : BitVec 32 :=
  if ex then (scanBefore comb v i).getD (identityOf f op) else (scanBefore comb v (i + 1)).getD 0

/-- The reductions and scans (R469, R472): tiles, and what an enabled lane receives, for the format and the image of the source. -/
inductive GroupWord (m : Strand) : Instr → Field → Field → (Nat → BitVec 32768 → Nat → BitVec 32) → Prop where
  | vredr (d a o r) : GroupWord m (.vredr d a o r) d a
      (fun f img l => (treeOf (combOf f o (m.redMode r) m.ieee) 6 (groupVals false m.mask img (l / 64))).getD 0)
  | vredc (d a o r) : GroupWord m (.vredc d a o r) d a
      (fun f img l => (treeOf (combOf f o (m.redMode r) m.ieee) 4 (groupVals true m.mask img (l % 64))).getD 0)
  | vscanr (d a x o r) : GroupWord m (.vscanr d a x o r) d a
      (fun f img l => scanAt f o x (combOf f o (m.redMode r) m.ieee) (groupVals false m.mask img (l / 64)) (l % 64))
  | vscanc (d a x o r) : GroupWord m (.vscanc d a x o r) d a
      (fun f img l => scanAt f o x (combOf f o (m.redMode r) m.ieee) (groupVals true m.mask img (l % 64)) (l / 64))

/-- Comparison, decay words and CORDIC functions, whose checks are their own, with the tiles, an element's bits, and the mode
of its rounding (R459, R460, R462, R463). -/
inductive OtherElements (s : State) (m : Strand) : Instr → Tile → (Nat → Elem) → Prop where
  | vcmp (d a b u c td ta tb) : m.vTile d intFmts = .ok td → m.vTile a vecFmts = .ok ta →
      (u = true → fltFmts.contains ta.fmt = false) → m.vLike ta b = .ok tb → cfgWidth td.fmt = cfgWidth ta.fmt →
      td.sameShape ta = true →
      OtherElements s m (.vcmp d a b u c) td (fun k => .plain
        (if cmpHolds c (elemVal ta.fmt u (elemBits (s.image ta) (cfgWidth ta.fmt) k))
          (elemVal ta.fmt u (elemBits (s.image tb) (cfgWidth ta.fmt) k)) then 2 ^ cfgWidth ta.fmt - 1 else 0))
  | vdkadd (d a b td ta tb) : m.vTile d [0xF] = .ok td → m.vLike td a = .ok ta → m.vTile b [0x0, 0xF] = .ok tb →
      tb.sameShape td = true →
      staleAt (s.decayOf m) m.mask 64 td.count (fun k => elemBits (s.image ta) 64 k) = none →
      (tb.fmt = 0xF → staleAt (s.decayOf m) m.mask 64 td.count (fun k => elemBits (s.image tb) (cfgWidth tb.fmt) k) = none) →
      OtherElements s m (.vdkadd d a b) td (fun k =>
        ⟨(s.decayOf m).merge m.ieee (elemBits (s.image ta) 64 k) (if tb.fmt = 0xF then
          (s.decayOf m).read (elemBits (s.image tb) (cfgWidth tb.fmt) k) else elemBits (s.image tb) (cfgWidth tb.fmt) k),
          false⟩)
  | vdkapp (d a td ta) : m.vTile d [0x0, 0xF] = .ok td → m.vTile a [0xF] = .ok ta → ta.sameShape td = true →
      staleAt (s.decayOf m) m.mask (cfgWidth td.fmt) td.count (fun k => elemBits (s.image ta) 64 k) = none →
      OtherElements s m (.vdkapp d a) td (fun k => .plain
        (if td.fmt = 0xF then (s.decayOf m).stamp (dkClass (elemBits (s.image ta) 64 k))
          ((s.decayOf m).read (elemBits (s.image ta) 64 k)) else (s.decayOf m).read (elemBits (s.image ta) 64 k)))
  | vcor (d a i f td ta tb) : f ≠ 0 → m.vTile d fltFmts = .ok td → m.vLike td a = .ok ta →
      (if f = 1 ∨ f = 7 then m.vLike td (a + 1) = .ok tb else tb = ta) →
      OtherElements s m (.vcor d a i f) td (fun k => .rnd (fmtOf td.fmt) .rne m.ieee 0
        (corValue f (i.toNat + 8) (decElem td.fmt (elemBits (s.image ta) (cfgWidth td.fmt) k))
          (decElem td.fmt (elemBits (s.image tb) (cfgWidth td.fmt) k))).1)

/-! ### The matrix unit -/

/-- The words on banks, leases and drains, and the rows of the array, with the state afterwards (R57, R116, R247, R328, R335,
R346, R347, R401, R446). -/
inductive MatrixWord (s : State) (u : Nat) (m : Strand) (c : Client) (loc : Nat) : Instr → State → Prop where
  | mlease : MatrixWord s u m c loc .mlease
      { s with
        array := s.array.filter fun e => e.2 ≠ u
        arrayReq := tabPut s.arrayReq loc u
        strands := tabPut (tabPut s.strands u { m with lease := .none }) u (Strand.setWait { m with lease := .none } .x .array) }
  | mrel : MatrixWord s u m c loc .mrel
      (State.setStrand { s with array := s.array.filter fun e => e.2 ≠ u } u (Strand.retire { m with lease := .none } .x))
  | azero (d a) : s.banksCheck u (locCore loc) d.toNat (a.toNat + 1) = none →
      MatrixWord s u m c loc (.azero d a)
        (((natRange d.toNat (a.toNat + 1)).foldl (fun (acc : State) j => acc.setBank (locCore loc) j 0) s).upd u fun k =>
          k.retire .x)
  | mmag (p q r ta tbs x ys k cy) : fld (m.reg p) 63 22 = 0 →
      ((natRange (fld (m.reg p) 21 18 + 1) (16 - (fld (m.reg p) 21 18 + 1))).any fun h =>
        groupCount (m.reg q) (m.reg r) h ≠ 0) = false →
      fld (m.reg p) 17 12 + (fld (m.reg p) 21 18 + 1) ≤ 64 → m.mTile ((m.reg p).extractLsb' 6 6) = .ok ta →
      ((groupsOf (m.reg q) (m.reg r) (fld (m.reg p) 21 18 + 1)).foldl (fun n x => n + x.2.2) 0) = ta.rows →
      m.groupTiles ta (fld (m.reg p) 17 12) (groupsOf (m.reg q) (m.reg r) (fld (m.reg p) 21 18 + 1)) = .ok tbs →
      s.planes c (ta :: tbs) = .inr (x :: ys) → m.lease = .held k cy → k ≠ 0 → cy ≠ 0 →
      s.rowBanks u (locCore loc) (fld (m.reg p) 5 0) ta.rows = none →
      MatrixWord s u m c loc (.mmag p q r)
        ((((groupsOf (m.reg q) (m.reg r) (fld (m.reg p) 21 18 + 1)).zip ys).foldl (fun (acc : State) e =>
          acc.multiply (locCore loc) (fld (m.reg p) 5 0) e.1.2.1 e.1.2.2 x e.2) s).upd u fun n =>
            ((x :: ys).foldl Strand.markZero n).matrixDone)
  | adrain (p q s2 d2) : s.drainCheck u (locCore loc) 0 (m.reg p) (m.reg q) = none → m.progAt m.x.pos = none →
      s.drain u c (locCore loc) (m.reg p) (m.reg q) (Mode.ofCode (drainRnd m (m.reg q)).toNat) m.ieee (fld (m.reg q) 12 6)
        ⟨0, 0, false⟩ = (s2, d2, .done) →
      MatrixWord s u m c loc (.adrain p q) (s2.upd u fun k => (k.dropProg m.x.pos).retire .x)
  | ast (p q x early) : tabAt m.early 0 m.s.pos = early →
      s.drainCheck u (locCore loc) early (m.reg p) (m.reg q) = none →
      MatrixWord s u m c loc (.ast p q x) (s.setStrand u (Strand.retire { m with
        asts := m.asts ++ [{ pos := m.s.pos, pc := m.s.pc, dst := m.reg p, desc := m.reg q, row := 0, ovf := 0, iovf := false
                             freed := early, rnd := drainRnd m (m.reg q), ieee := m.ieee, stopped := false, dmap := m.dmap }]
        early := tabDel m.early m.s.pos } .s))

/-- The rows of the matrix array and of a running AST, with the state afterwards (R57, R247, R346). -/
inductive MatrixRow (s : State) : Instr → State → Prop where
  | grant (core : BitVec 18) (b u m w i) : tabGet s.array core.toNat = none → s.nextRequester core.toNat = some (b, u) →
      s.strand u = some m → m.wordAt m.x.pos = some w → decode w.bits = some i →
      MatrixRow s (.matrixArrayGrant core) (State.setStrand { s with
        array := tabPut s.array core.toNat u
        arrayLast := tabPut s.arrayLast core.toNat b
        arrayReq := tabDel s.arrayReq (bankOf core.toNat b) } u
        (if i = .mlease then Strand.retire { m.setWait .x .none with lease := .held 16 4096 } .x
          else { m.setWait .x .none with lease := .held 16 4096 }))
  | lapse (loc : Loc) (u m k c) : s.onBank loc.toNat = some (u, m) → s.strand u = some m → m.lease = .held k c →
      (k = 0 ∨ c = 0) →
      MatrixRow s (.leaseLapse loc) (State.setStrand { s with array := s.array.filter fun e => e.2 ≠ u } u
        { m with lease := .lapsed })
  | ast (loc : Loc) (u m c a s2 d2) : s.onBank loc.toNat = some (u, m) → m.asts.find? (fun a => !a.stopped) = some a →
      s.clientOf m = some c →
      s.drain u { c with dmap := a.dmap } (locCore loc.toNat) a.dst a.desc (Mode.ofCode a.rnd.toNat) a.ieee
        (fld a.desc 12 6 - a.row) ⟨a.row, a.ovf.toNat, a.iovf⟩ = (s2, d2, .done) →
      MatrixRow s (.astFinish loc)
        (((s2.upd u fun k => k.dropAst a.pos).freeDrained u (locCore loc.toNat) a.freed).takeFault u)

/-- VCOR SINCOS, VCVT and TUNPK read their operands: the tiles and scale bytes of a VCVT that can be carried out (R461). -/
def Converts (s : State) (m : Strand) (c : Client) (d a : Field) (td ta : Tile) (pd pa : Nat) : Prop :=
  m.vTile d cvtTo = .ok td ∧ m.vTile a cvtFrom = .ok ta ∧ ta.sameShape td = true ∧
  s.scaleBytes c td.cfg (td.blocks td.count fun k => m.mask.getLsbD (laneOf (cfgWidth td.fmt) k)) = .inr pd ∧
  s.scaleBytes c ta.cfg (ta.blocks ta.count fun k => m.mask.getLsbD (laneOf (cfgWidth td.fmt) k)) = .inr pa

/-- A matrix command may run: a lease with commands and cycles left, and OWNED banks for the rows (R56, R399). -/
def MatrixMayRun (s : State) (u : Nat) (m : Strand) (core j rows k cy : Nat) : Prop :=
  m.lease = .held k cy ∧ k ≠ 0 ∧ cy ≠ 0 ∧ s.rowBanks u core j rows = none

/-- What a word on banks leaves: memory, tiles, codebooks, other strands, and of its strand all registers, masks, tokens and
configurations. -/
def BankFrame (s t : State) (u : Nat) (m n : Strand) : Prop :=
  t.mem = s.mem ∧ t.fe = s.fe ∧ t.tiles = s.tiles ∧ t.books = s.books ∧ t.ranks = s.ranks ∧ t.strand u = some n ∧
  n.g = m.g ∧ n.tok = m.tok ∧ n.masks = m.masks ∧ n.lanes = m.lanes ∧ n.tcfg = m.tcfg ∧ n.frame = m.frame ∧
  n.state = m.state ∧ n.c = m.c ∧ n.l = m.l ∧ n.s = m.s ∧ n.x.pos = m.x.pos + 1 ∧ (∀ v, v ≠ u → t.strand v = s.strand v)

/-! ### Messages between dies -/

/-- A write of R242 whose translation names another die than its strand's, or a polder page: its faults from here on are posted
(R174). -/
def postsAway (q : Msg) (a : Access) (t : Target) : Bool := a.op.posts && (t.polder || t.die ≠ q.src)

/-- An access that its die has translated; one whose faults are posted answers nothing more. -/
def translatedBy (q : Msg) (a : Access) (t : Target) : Access :=
  { a with phys := some (t.addr, t.polder), via := t.via, waits := a.waits && !postsAway q a t }

/-- As it goes on to the die that holds its bytes (R170, R191). -/
def onwardBody (q : Msg) (a : Access) (t : Target) : Body :=
  if t.polder then .polder (translatedBy q a t) t.addr else .access (translatedBy q a t)

/-- The rows of a message that has reached its die, with the state afterwards (R90, R163, R174, R187, R191, R242, R257, R260,
R265, R269). -/
inductive MessageRow (s : State) (q : Msg) : Instr → State → Prop where
  | placed (a addr v s1) : q.body = .access a → a.phys = some (addr, false) →
      s.strayed a.via q.dst a.job a.key a.off addr = false → s.pageWait a.via a.job a.key a.off a.op.writes = none →
      s.perform a addr = (v, s1) → MessageRow s q .peerRequest (s1.answer q a v)
  | translated (a s1 t far v s2) : q.body = .access a → a.phys = none → s.forwardOf q.dst a.job a.key = some q.dst →
      s.locateLeaf ⟨q.dst, a.key, a.off⟩ a.job a.home q.src a.op.writes = (s1, .ok t, far) → t.local_ = true →
      postsAway q a t = false → s1.perform { a with via := t.via } t.addr = (v, s2) →
      MessageRow s q .peerRequest (s2.answer q a v)
  | goesOn (a s1 t far) : q.body = .access a → a.phys = none → s.forwardOf q.dst a.job a.key = some q.dst →
      s.locateLeaf ⟨q.dst, a.key, a.off⟩ a.job a.home q.src a.op.writes = (s1, .ok t, far) → t.local_ = true →
      postsAway q a t = true →
      MessageRow s q .peerRequest ((s1.setMsg { q with body := .access (translatedBy q a t) }).letGo q a)
  | sentOn (a s1 t far) : q.body = .access a → a.phys = none → s.forwardOf q.dst a.job a.key = some q.dst →
      s.locateLeaf ⟨q.dst, a.key, a.off⟩ a.job a.home q.src a.op.writes = (s1, .ok t, far) → t.local_ = false →
      postsAway q a t = false →
      MessageRow s q .peerRequest (s1.setMsg (q.onward t.die (t.addr % 2 ^ 40) (onwardBody q a t)))
  | postedOn (a s1 t far) : q.body = .access a → a.phys = none → s.forwardOf q.dst a.job a.key = some q.dst →
      s.locateLeaf ⟨q.dst, a.key, a.off⟩ a.job a.home q.src a.op.writes = (s1, .ok t, far) → t.local_ = false →
      postsAway q a t = true →
      MessageRow s q .peerRequest ((s1.setMsg (q.onward t.die (t.addr % 2 ^ 40) (onwardBody q a t))).letGo q a)
  | refused (a s1 e far) : q.body = .access a → a.phys = none → s.forwardOf q.dst a.job a.key = some q.dst →
      s.locateLeaf ⟨q.dst, a.key, a.off⟩ a.job a.home q.src a.op.writes = (s1, .fault e, far) →
      MessageRow s q .peerRequest (s1.refuse q a e far)
  | strayed (a addr b) : q.body = .access a → a.phys = some (addr, b) →
      s.strayed a.via q.dst a.job a.key a.off addr = true →
      MessageRow s q .peerRequest (s.setMsg (q.onward a.via a.off (.access { a with phys := none })))
  | polder (a at_ addr v s1) : q.body = .polder a at_ → a.phys = some (addr, true) →
      s.strayed a.via q.dst a.job a.key a.off addr = false →
      (s.die q.dst).lends (peerOf a.via) (addr % 2 ^ 40 / 65536) = true →
      s.pageWait a.via a.job a.key a.off a.op.writes = none → s.perform a addr = (v, s1) →
      MessageRow s q .polderRequest (s1.answer q a v)
  | polderLost (a at_ addr) : q.body = .polder a at_ → a.phys = some (addr, true) →
      s.strayed a.via q.dst a.job a.key a.off addr = false →
      (s.die q.dst).lends (peerOf a.via) (addr % 2 ^ 40 / 65536) = false →
      MessageRow s q .polderRequest (s.refuse q a cPOLDER_LOST true)
  | reply (u t d v va req m) : q.body = .reply u t d v va req → s.strand u = some m → (m.stream t).wait = .reply req →
      m.noted = [] → MessageRow s q .peerResponse ((s.dropMsg q.id).setStrand u ((m.setReg d v).retire t))
  | late (u t d v va req m) : q.body = .reply u t d v va req → s.strand u = some m → (m.stream t).wait ≠ .reply req →
      MessageRow s q .peerResponse (s.dropMsg q.id)
  | refusal (u t e va req m) : q.body = .refuse u t e va req → s.strand u = some m → (m.stream t).wait = .reply req →
      MessageRow s q .peerResponse (((s.dropMsg q.id).setStrand u (m.setWait t .none)).raise u t e va 0)
  | letGo (u t va req m) : q.body = .goOn u t va req → s.strand u = some m → (m.stream t).wait = .reply req →
      m.noted = [] → MessageRow s q .peerResponse ((s.dropMsg q.id).setStrand u (m.retire t))
  | leaseOutcome (status le be p ticket) : q.body = .lendDone status le be (.sluice p ticket) →
      MessageRow s q .peerResponse ((s.dropMsg q.id).finish p ticket status (wd (status.toNat + le * 2 ^ 8 + be * 2 ^ 12)))
  | leaseStatus (status le be u d m) : q.body = .lendDone status le be (.strand u d) → s.strand u = some m →
      m.c.wait = .lease → m.noted = [] →
      MessageRow s q .peerResponse ((s.dropMsg q.id).setStrand u
        ((m.setReg d (wd (status.toNat + le * 2 ^ 8 + be * 2 ^ 12))).retire .c))
  | posted (u e m) : q.body = .post u e → s.strand u = some m → m.errq ≠ [] → m.errq.length < 64 →
      MessageRow s q .errorQueuePost ((s.dropMsg q.id).setStrand u { m with errq := m.errq ++ [e] })
  | postedFirst (u e m) : q.body = .post u e → s.strand u = some m → m.errq = [] →
      MessageRow s q .errorQueuePost (((s.dropMsg q.id).setStrand u { m with errq := [e] }).event m.rank
        (evPayload 0x02 (m.place.getD 0 * 65536) e.addr.toNat))
  | postedFull (u e m) : q.body = .post u e → s.strand u = some m → 64 ≤ m.errq.length →
      MessageRow s q .errorQueuePost ((s.dropMsg q.id).setStrand u { m with errOvf := true })
  | begins (w r u slot k0 k n c h s1 p l s2 x) : q.body = .coll w → s.reached q.dst w.dest = .here r →
      s.collCmd w.dest w.head.comm w.head.seq = some (u, slot, k0) → s.cmdAt u k0 = some (n, c, k) →
      k0.head = some h → k.state = .running → n.state ≠ .faulted → w.phase = .start → k.begun = false →
      s.roster r w.dest h.comm = (s1, .ok p l) →
      s1.collSource u slot c k (collNeeds { k with
        pos := some p, members := l, begun := true, left := collMessages k.op h p } h p .start) = (s2, some x) →
      MessageRow s q .collectiveMessage (s2.collApply q r w.dest u slot c k h (collBegin { k with
        pos := some p, members := l, begun := true, left := collMessages k.op h p } h p x))
  | hop (w r u slot k0 k n c s1 x a) : q.body = .coll w → s.reached q.dst w.dest = .here r →
      s.collCmd w.dest w.head.comm w.head.seq = some (u, slot, k0) → s.cmdAt u k0 = some (n, c, k) →
      k0.head = some w.head → k.state = .running → n.state ≠ .faulted → w.phase ≠ .start → k.begun = true →
      s.collSource u slot c k (collNeeds k w.head (k.pos.getD 0) w.phase) = (s1, some x) →
      collTake k w.head (k.pos.getD 0) x w.words w.phase = some a →
      MessageRow s q .collectiveMessage (s1.collApply q r w.dest u slot c k w.head a)
  | abort (comm seq dest r u slot k n c k1 s1 s2) : q.body = .abort comm seq dest → s.reached q.dst dest = .here r →
      s.collCmd dest comm seq = some (u, slot, k) → s.cmdAt u k = some (n, c, k1) → k.state ≠ .running →
      s.cmdFault u slot c k cPEER_UNREACHABLE true (k.dst + wd (4096 * k.next)) = .ok s1 → s1.abandon u slot c k = .ok s2 →
      MessageRow s q .collectiveAbort (s2.dropMsg q.id)
  | abortTorn (comm seq dest r u slot k n c k1 s0 s1 s2) : q.body = .abort comm seq dest → s.reached q.dst dest = .here r →
      s.collCmd dest comm seq = some (u, slot, k) → s.cmdAt u k = some (n, c, k1) → k.state = .running →
      s0 = (natRange k.next 16).foldl (fun (acc : State) i => acc.tearChunk c k i) s →
      s0.cmdFault u slot c k cPEER_UNREACHABLE true (k.dst + wd (4096 * k.next)) = .ok s1 → s1.abandon u slot c k = .ok s2 →
      MessageRow s q .collectiveAbort (s2.dropMsg q.id)
  | aborted (comm seq dest r) : q.body = .abort comm seq dest → s.reached q.dst dest = .here r → s.collCmd dest comm seq = none →
      (seq - (r.comm comm).seq).msb = true → MessageRow s q .collectiveAbort (s.dropMsg q.id)
  | endpoint (job vrank entry s1) : q.body = .endpoint job vrank entry →
      s.putEndpoints vrank entry (s.ranks.filter fun e => e.2.job = job && e.2.home = q.dst) = .ok s1 →
      MessageRow s q .endpointUpdate (s1.dropMsg q.id)

/-! ### Scheduling -/

/-- The queues of a rank are served in order of priority (R219): the first head that is well formed and whose waits are met is
activated, and a malformed head before it is popped and reported (R221). -/
inductive Serves (key : Nat) (r : Rank) : List Nat → State → State → Prop where
  | done (s) : Serves key r [] s s
  | pass (q rest s s1 h t) : s.headOf key r q = (s1, h) → (h = .empty ∨ h = .blocked) → Serves key r rest s1 t →
      Serves key r (q :: rest) s t
  | ready (q rest s s1 e w) : s.headOf key r q = (s1, .ready w) → (vget r.queues [] q).head? = some e →
      Serves key r (q :: rest) s (s1.activate key r q e w)
  | malformed (q rest s s1 e cause) : s.headOf key r q = (s1, .malformed cause) → (vget r.queues [] q).head? = some e →
      Serves key r (q :: rest) s
        ((s1.updRank key fun v => v.pop q).event key (evPayload 0x11 (cause.toNat * 256) e.addr.toNat))

/-- The ordinal of a nest that is dispatched next in a partition, with the slot of the cluster and its seats (R223, R225). -/
def nextOf (s : State) (r : Rank) (lp cluster : Nat) (e : Nat × Nest) : Option (Nat × Nest × Nat × Nat × List (Nat × Nat)) :=
  if s.nestHeld r e.1 then none
  else match leastBy (·.1) (e.2.todo.filter fun x => x.2 = lp) with
    | none => none
    | some (o, _) => (slotsOf e.2.words).findSome? fun k =>
      (s.fitSlot e.2.words cluster k).map fun seats => (e.1, e.2, o, k, seats)

/-- The record of a segment that an address of a strand's region names (R138, R156). -/
def segmentFor (m : Strand) (c : Client) (g : Gang) (addr : Word) : SegRec :=
  if 0x1000000 ≤ fld addr 51 0 then ⟨m.rank, c.lp, (fld addr 51 0 - 0x1000000) / 65536, 0, .active⟩
  else ⟨m.rank, m.gang, fld addr 51 0 / 65536, m.member / g.spc, .active⟩

/-- A strand once the segment of an address that another one accesses is bound (R157): one that shares the segment, by its rank
in the cluster or by its gang on the core, waits for it no more. -/
def afterBind (m : Strand) (loc : Nat) (addr : Word) (x : Nat × Strand) : Nat × Strand :=
  match x.2.place with
  | none => x
  | some l =>
    if x.2.rank = m.rank && (if 0x1000000 ≤ fld addr 51 0 then locCluster l = locCluster loc
        else x.2.gang = m.gang && locCore l = locCore loc)
    then (x.1, x.2.wake (fld addr 51 0 / 65536 * 65536) (fld addr 51 0 / 65536 * 65536 + 65536)) else x

/-- The rows of the scheduler, with the state afterwards (R36, R157, R219, R225, R229, R230). -/
inductive ScheduleRow (s : State) : Instr → State → Prop where
  | activate (key r t) : s.rank? key = some r → (s.nestsOf key).length < 16 → r.stepping = none → s.halting r = false →
      Serves key r [0, 1, 2, 3] s t → ScheduleRow s (.nestActivate key) t
  | dispatch (key lp s0 r cluster nid n o k seats) : s.placePartition key lp = s0 → s0.rank? key = some r →
      tabGet r.clusters lp = some cluster → r.leaving lp = false → s0.halting r = false →
      s0.resumable key r lp cluster = none →
      (s0.nestsOf key).findSome? (nextOf s0 r lp cluster) = some (nid, n, o, k, seats) →
      ScheduleRow s (.gangDispatch key lp) ((s0.dispatch r nid n lp o cluster k seats).nextRound r nid o)
  | resume (key lp s0 r cluster gid g n k seats t) : s.placePartition key lp = s0 → s0.rank? key = some r →
      tabGet r.clusters lp = some cluster → r.leaving lp = false → s0.halting r = false →
      s0.resumable key r lp cluster = some (gid, g, n, k, seats) → s0.resumeGang gid g cluster k seats = .ok t →
      ScheduleRow s (.gangResume key lp) t
  | switchOut (key r j rest gid more g image s1) : s.rank? key = some r → r.jobs = j :: rest → j.gangs = gid :: more →
      s.gang? gid = some g → g.resident = true → s.halted gid = true → g.image.or (s.freeImage key r) = some image →
      s.switchGang gid g image = .ok s1 → ScheduleRow s (.gangSwitchOut key) ((s1.popGang key).nextJobs key)
  | noImage (key r j rest gid more g) : s.rank? key = some r → r.jobs = j :: rest → j.gangs = gid :: more →
      s.gang? gid = some g → g.resident = true → s.halted gid = true → g.image = none → s.freeImage key r = none →
      ScheduleRow s (.gangSwitchOut key) (s.exhausted key g j)
  | leaves (key r lp inLp p ticket rest cluster) : s.rank? key = some r →
      r.jobs = ⟨[], .exchange lp none inLp p ticket⟩ :: rest → tabGet r.clusters lp = some cluster →
      ScheduleRow s (.partitionExchangeDone key)
        ((((s.unbindPartition key lp).updRank key fun v => { v with jobs := rest, out := natIns v.out lp }).finish
          (BitVec.ofNat 10 p) ticket 0 0).nextJobs key)
  | exchange (key r lp other inLp p ticket rest cluster s1 q) : s.rank? key = some r →
      r.jobs = ⟨[], .exchange lp (some other) inLp p ticket⟩ :: rest → tabGet r.clusters lp = some cluster →
      (s.unbindPartition key lp).updRank key (fun v => { v with jobs := rest, out := natIns v.out lp }) = s1 →
      s1.rank? other = some q → tabGet q.clusters inLp = none → q.home = locDie cluster →
      ScheduleRow s (.partitionExchangeDone key)
        ((((s1.updRank other fun v => { v with out := v.out.filter (· ≠ inLp) }).bindPartition other inLp cluster).finish
          (BitVec.ofNat 10 p) ticket 0 0).nextJobs key)
  | bindLater (loc : Loc) (addr u m c g w s1) : s.onBank loc.toNat = some (u, m) → s.clientOf m = some c →
      s.accesses m loc.toNat addr.toNat = true ∨ s.claimed (0x1000000 ≤ fld addr 51 0) (segmentFor m c g addr) = true →
      fld addr 63 52 = 31 → s.scratch c addr = .stall w → s.gang? m.gang = some g → s.bindSeg (0x1000000 ≤ fld addr 51 0)
        (if 0x1000000 ≤ fld addr 51 0 then locCluster loc.toNat * 256 else locCore loc.toNat * 32)
        (if 0x1000000 ≤ fld addr 51 0 then 256 else 24) (segmentFor m c g addr) = .waits s1 →
      ScheduleRow s (.segmentBind loc addr) s1
  | bind (loc : Loc) (addr u m c g w s1) : s.onBank loc.toNat = some (u, m) → s.clientOf m = some c →
      s.accesses m loc.toNat addr.toNat = true ∨ s.claimed (0x1000000 ≤ fld addr 51 0) (segmentFor m c g addr) = true →
      fld addr 63 52 = 31 → s.scratch c addr = .stall w → s.gang? m.gang = some g → s.bindSeg (0x1000000 ≤ fld addr 51 0)
        (if 0x1000000 ≤ fld addr 51 0 then locCluster loc.toNat * 256 else locCore loc.toNat * 32)
        (if 0x1000000 ≤ fld addr 51 0 then 256 else 24) (segmentFor m c g addr) = .done s1 →
      ScheduleRow s (.segmentBind loc addr) { s1 with strands := s1.strands.map (afterBind m loc.toNat addr) }
  | bound (loc : Loc) (addr u m c a) : s.onBank loc.toNat = some (u, m) → s.clientOf m = some c →
      s.accesses m loc.toNat addr.toNat = true → fld addr 63 52 = 31 → s.scratch c addr = .ok a →
      ScheduleRow s (.segmentBind loc addr) { s with strands := s.strands.map (afterBind m loc.toNat addr) }

/-! ### The platform -/

/-- A selector of LIMIT that names a warning threshold (R287). -/
def thresholdSel (sel : Word) : Prop := 0x1000 ≤ sel.toNat ∧ sel.toNat < 0x1400 ∧ sel.toNat % 256 < 8

/-- A limit setting out of its range, or of no limit (R287, R294). -/
def limitOut (sel v : Word) : Prop :=
  (sel = 0 ∧ (v.toNat < 600 ∨ 1900 < v.toNat)) ∨ (sel = 1 ∧ (v.toNat < 70 ∨ 100 < v.toNat)) ∨
  (thresholdSel sel ∧ 2 ^ 32 ≤ v.toNat) ∨ (sel ≠ 0 ∧ sel ≠ 1 ∧ ¬ thresholdSel sel)

/-- What a host action or a platform event does to its package alone, with the package afterwards (R271, R278, R280 to R282,
R290, R292). -/
inductive PackageRow (s : State) (p : Pkg) (k : Package) : Instr → Package → Prop where
  | coldIgnored : k.state = .starting ∨ k.state = .started → PackageRow s p k (.startCold p) { k with kind := 1 }
  | warmAgain : k.state = .off ∨ k.state = .failed → k.warmok = true → k.resumable = true → k.lastKind = 2 →
      PackageRow s p k (.startWarm p) { k with
        kind := 2, state := .starting, step := firstStep (k.log.filter logDone), attempt := 1, log := k.log.filter logDone
        resumable := false }
  | warm : k.state = .off ∨ k.state = .failed → k.warmok = true → k.resumable = false ∨ k.lastKind ≠ 2 →
      PackageRow s p k (.startWarm p) { k with
        kind := 2, state := .starting, step := 1, attempt := 1, log := [], lastKind := 2, resumable := false }
  | warmIgnored : k.warmok = false → PackageRow s p k (.startWarm p) { k with kind := 2 }
  | stepSkipped (cycles) : k.state = .starting → 1 ≤ k.step → k.step < 9 → skips k.lastKind k.step = true →
      PackageRow s p k (.startStepDone p cycles) { k with
        log := k.log ++ [logEntry k.step k.attempt 0xFF (k.lastKind = 2) 0], attempt := 1, step := k.step + 1 }
  | configLoaded (cycles) : k.state = .starting → k.step = 7 → PackageRow s p k (.startStepDone p cycles) { k with
      ident := k.flash, log := k.log ++ [logEntry 7 k.attempt 0 (k.lastKind = 2) cycles.toNat], attempt := 1, step := 8 }
  | stepDone (cycles) : k.state = .starting → 2 ≤ k.step → k.step < 9 → k.step ≠ 5 → k.step ≠ 6 → k.step ≠ 7 → skips k.lastKind k.step = false →
      PackageRow s p k (.startStepDone p cycles) { k with
        log := k.log ++ [logEntry k.step k.attempt 0 (k.lastKind = 2) cycles.toNat], attempt := 1, step := k.step + 1 }
  | lastCold (cycles) : k.state = .starting → k.step = 9 → k.lastKind = 1 →
      PackageRow s p k (.startStepDone p cycles) { k with
        log := k.log ++ [logEntry 9 k.attempt 0xFF false 0], attempt := 1, state := .started }
  | stepFails (code cycles) : k.state = .starting → code ≠ 0 → code ≠ 0xFF → skips k.lastKind k.step = false →
      k.attempt < 3 → PackageRow s p k (.startStepFail p code cycles) { k with
        log := k.log ++ [logEntry k.step k.attempt code.toNat (k.lastKind = 2) cycles.toNat], attempt := k.attempt + 1
        resumable := false }
  | startFails (code cycles) : k.state = .starting → code ≠ 0 → code ≠ 0xFF → skips k.lastKind k.step = false →
      3 ≤ k.attempt → PackageRow s p k (.startStepFail p code cycles) { k with
        log := k.log ++ [logEntry k.step k.attempt code.toNat (k.lastKind = 2) cycles.toNat], state := .failed
        resumable := true }
  | turnsCold (code cycles) : k.state = .starting → code ≠ 0 → code ≠ 0xFF → k.lastKind = 2 → k.step = 2 → k.attempt < 3 →
      PackageRow s p k (.startStepFail p code cycles) { k with
        log := k.log ++ [logEntry 2 k.attempt code.toNat true cycles.toNat], lastKind := 1, warmok := false, warm := none
        attempt := k.attempt + 1, resumable := false }
  | doorbell (v : Word) : k.portUp = true →
      (k.sqtail - k.sqhead).toNat + (BitVec.setWidth 8 v - k.sqtail).toNat ≤ 255 →
      PackageRow s p k (.sqtailDoorbell p v) { k with sqtail := v.setWidth 8 }
  | overrun (v : Word) : k.portUp = true → 255 < (k.sqtail - k.sqhead).toNat + (BitVec.setWidth 8 v - k.sqtail).toNat →
      PackageRow s p k (.sqtailDoorbell p v) { k with ovr := true }
  | cqhead (v : Word) : k.portUp = true → k.pending = [] → PackageRow s p k (.cqheadAdvance p v) { k with cqhead := v }
  | windowWord (off : BitVec 16) (v : Word) : k.portUp = true → off.toNat < 0x4000 → off.toNat % 8 = 0 →
      PackageRow s p k (.hostRegisterWrite p off v) { k with
        ring := tabPut k.ring (off.toNat / 64) (setCommandWord (tabAt k.ring zeroCommand (off.toNat / 64)) (off.toNat % 64 / 8) v) }
  | cqsize (v : Word) : k.portUp = true → k.cqhead = k.cqtail → k.nqhead = k.nqtail → k.sqhead = k.sqtail → k.pending = [] →
      ringSize v = true → PackageRow s p k (.hostRegisterWrite p 0x4018 v) { k with cqsize := v }
  | cqsizeIgnored (v : Word) : k.portUp = true → ringSize v = false → PackageRow s p k (.hostRegisterWrite p 0x4018 v) k
  | nqhead (v : Word) : k.portUp = true → PackageRow s p k (.hostRegisterWrite p 0x4040 v) { k with nqhead := v }
  | closed (off : BitVec 16) (v : Word) : k.portUp = false → off ≠ 0xFFF8 → PackageRow s p k (.hostRegisterWrite p off v) k
  | plimit (v : Word) : s.alive p = true → 600 ≤ v.toNat → v.toNat ≤ 1900 →
      PackageRow s p k (.i3cLimitWrite p 0 v) { k with plimit := v }
  | tlimit (v : Word) : s.alive p = true → 70 ≤ v.toNat → v.toNat ≤ 100 →
      PackageRow s p k (.i3cLimitWrite p 1 v) { k with tlimit := v }
  | limitIgnored (sel v : Word) : s.alive p = true → limitOut sel v → PackageRow s p k (.i3cLimitWrite p sel v) k
  | route (dest entry) : PackageRow s p k (.routeEntryLoad p dest entry) { k with
      routes := tabSet k.routes 0 dest.toNat (entry &&& 0x80000000007FFFFF), routeHold := tabPut k.routeHold dest.toNat (s.ids :: tabAt k.routeHold [] dest.toNat) }
  | window (addr : BitVec 48) (w) : s.windowAt p (addr.toNat / 8 * 8) = some w →
      PackageRow s p k (.i3cWindowRead p addr) { k with i3cData := w }

/-- The other rows of the platform, with the state afterwards (R253, R271, R279, R289 to R291, R293, R294). -/
inductive PlatformRow (s : State) (p : Pkg) : Instr → State → Prop where
  | cold : (s.pkg p).state = .off ∨ (s.pkg p).state = .failed → (s.pkg p).resumable = false ∨ (s.pkg p).lastKind ≠ 1 →
      PlatformRow s p (.startCold p) (((s.updPkg p fun k => { k with kind := 1 }).coldClear p).updPkg p fun k => { k with
        state := .starting, step := 1, attempt := 1, log := [], lastKind := 1, resumable := false })
  | coldAgain : (s.pkg p).state = .off ∨ (s.pkg p).state = .failed → (s.pkg p).resumable = true → (s.pkg p).lastKind = 1 →
      PlatformRow s p (.startCold p) (((s.updPkg p fun k => { k with kind := 1 }).coldClear p).updPkg p fun k => { k with
        state := .starting, step := firstStep (k.log.filter logDone), attempt := 1, log := k.log.filter logDone
        resumable := false })
  | stopCold (kind) : (s.pkg p).state = .started → kind ≠ 2 → PlatformRow s p (.stopCold p kind)
      (((s.updPkg p fun k => { k with kind := kind }).coldOff p).updPkg p fun v => { v with resumable := false })
  | stopWarm : (s.pkg p).state = .started → s.ranksIn p = [] →
      PlatformRow s p (.stopWarm p)
        (((s.updPkg p fun k => { k with kind := 2 }).updPkg p fun k => { k with stopping := true }).warmOff p)
  | trip : (s.pkg p).state = .started → s.alive p = true → PlatformRow s p (.thermalTrip p)
      (((s.coldOff p).updPkg p fun v => { v with resumable := false }).updPkg p fun k => { k with trip := true })
  | ports (cycles) : (s.pkg p).state = .starting → (s.pkg p).step = 1 → PlatformRow s p (.startStepDone p cycles)
      (s.updPkg p fun k => { k.resetWindow with
        log := k.log ++ [logEntry 1 k.attempt 0 (k.lastKind = 2) cycles.toNat], attempt := 1, step := 2 })
  | sram (cycles) : (s.pkg p).state = .starting → (s.pkg p).step = 5 → PlatformRow s p (.startStepDone p cycles)
      ((s.scrubSram p).updPkg p fun k => { k with
        log := k.log ++ [logEntry 5 (s.pkg p).attempt 0 ((s.pkg p).lastKind = 2) cycles.toNat], attempt := 1, step := 6
        state := .starting })
  | dram (cycles) : (s.pkg p).state = .starting → (s.pkg p).step = 6 → (s.pkg p).lastKind ≠ 2 →
      PlatformRow s p (.startStepDone p cycles) ((s.scrubDram p).updPkg p fun k => { k with
        warmok := false, warm := none, log := k.log ++ [logEntry 6 (s.pkg p).attempt 0 false cycles.toNat], attempt := 1
        step := 7, state := .starting })
  | reconciled (cycles) : (s.pkg p).state = .starting → (s.pkg p).step = 9 → (s.pkg p).lastKind = 2 →
      PlatformRow s p (.startStepDone p cycles) ((s.reconcile p).updPkg p fun k => { k with
        log := k.log ++ [logEntry 9 (s.pkg p).attempt 0 true cycles.toNat], attempt := 1, step := 9, state := .started })
  | corrected (die counter) : s.alive (pkgOf die) = true →
      PlatformRow s p (.correctedError die counter) (s.countError die counter.toNat)
  | retry (die port) : s.alive (pkgOf die) = true → PlatformRow s p (.linkRetry die port) (s.countError die (3 + port.toNat))
  | limits (thermal engaged die) : s.alive p = true → PlatformRow s p (.limitEngage p thermal engaged die)
      (s.notify p (BitVec.ofNat 128 (0x06 + b2n thermal * 2 ^ 8 + b2n engaged * 2 ^ 9 +
        (if thermal then die.toNat * 2 ^ 10 else 0))))
  | lost (other) : s.ranks = [] → (∀ d, (s.die d).polders = []) → PlatformRow s p (.packageLost p other)
      (s.updPkg p fun k => { k with lost := if k.lost.contains other then k.lost else k.lost ++ [other] })

/-! ### A rank's engines -/

/-- The rows of a rank's engines, with the state afterwards (R134 to R136, R268, R273). -/
inductive EngineRow (s : State) (key : Nat) (r : Rank) : Instr → State → Prop where
  | round (p v moved) : r.precopy = some p → p.finished = false → r.stepping = none → s.dieHeld r.home = false → s.reach r.home p.target 0 = true →
      s.reserveAll r p = some (v, moved) →
      EngineRow s key r (.precopyRound key) ((s.setDie p.target v).updRank key fun q => { q with precopy := some { p with
        round := p.round + 1, moved := moved, finished := decide (p.dirty.length ≤ 2048)
        dirty := if p.dirty.length ≤ 2048 then p.dirty else [] } })
  | short (p) : r.precopy = some p → p.finished = false → r.stepping = none → s.dieHeld r.home = false → s.reach r.home p.target 0 = true →
      s.reserveAll r p = none → EngineRow s key r (.precopyRound key) (s.abandonMove key 4 p.target)
  | swept (w rest e s1 t) : r.sweeps = w :: rest → w.ahead = [] → w.todo.head? = some e → r.snap = none →
      s.procedureHolds (r.client key) (wd (e.first * 65536)) = false →
      (s.noSweeps.softHolds.updRank key fun v => v).access (r.client key) (wd (e.first * 65536)) 65536 false = (s1, .ok t) →
      s1.sweepWrites ⟨w.decay, w.s0.toNat % 2 ^ 24⟩ t.addr = false →
      EngineRow s key r (.sweepPage key)
        (((((s1.sweepsOf s).holdsOf s).updRank key fun v => v).sweepWords key ⟨w.decay, w.s0.toNat % 2 ^ 24⟩
          (wd (e.first * 65536)).toNat t.addr).pageSwept key e.first r.sweeps)
  | rewritten (w rest e s1 t s2 t2) : r.sweeps = w :: rest → w.ahead = [] → w.todo.head? = some e → r.snap = none →
      s.procedureHolds (r.client key) (wd (e.first * 65536)) = false →
      (s.noSweeps.softHolds.updRank key fun v => v).access (r.client key) (wd (e.first * 65536)) 65536 false = (s1, .ok t) →
      s1.sweepWrites ⟨w.decay, w.s0.toNat % 2 ^ 24⟩ t.addr = true →
      s1.access (r.client key) (wd (e.first * 65536)) 65536 true = (s2, .ok t2) →
      EngineRow s key r (.sweepPage key)
        (((((s2.sweepsOf s).holdsOf s).updRank key fun v => v).sweepWords key ⟨w.decay, w.s0.toNat % 2 ^ 24⟩
          (wd (e.first * 65536)).toNat t2.addr).pageSwept key e.first r.sweeps)
  | copied (n page rest s1 t) : r.snap = some n → n.todo = page :: rest → rest ≠ [] → r.sweeps = [] →
      s.dieHeld r.home = false → s.reach r.home (regionDie n.req.base) (regionOff n.req.base) = true →
      (s.noSweeps.setRank key r).access (r.client key) (wd (page * 65536)) 65536 false = (s1, .ok t) →
      EngineRow s key r (.snapshotPageCopy key)
        (((s1.copyBytes t.addr (lpddrAddr (regionDie n.req.base).toNat (regionOff n.req.base + 65536 * n.next)) 65536).sweepsOf
          s).updRank key fun v => { v with snap := some { n with
            todo := rest
            copied := n.copied ++ [⟨page, some n.next,
              ((s.walk r.home r.job r.vrank.toNat (page * 65536)).map (·.leaf)).getD 0⟩]
            next := n.next + 1 } })
  | sealed (n) : r.snap = some n → n.todo = [] → EngineRow s key r (.snapshotPageCopy key) (s.sealShard key r n)

/-! ### Sluice commands -/

/-- The die that W2 of a TABLEW names (R496). -/
def tableDie (c : Command) : DieKey := BitVec.ofNat 12 (fld c.w2 27 16)

/-- A TABLEW of a table held per die is well formed and reaches its die (R496). -/
def ForDie (s : State) (p : Pkg) (c : Command) : Prop :=
  tableForm c true = true ∧ sluiceReaches (taken s p c) p (tableDie c) = true

/-- The commands that act for no rank, under the conditions on which each succeeds, with VALUE and the state before the
completion is written (R165, R171, R173, R179, R284, R285, R287, R294, R295, R496). -/
inductive DeviceCommand (s : State) (p : Pkg) (c : Command) : Instr → Word → State → Prop where
  | swread (s1 w) : c.w2.toNat % 8 = 0 → c.w2.toNat < 2 ^ 48 → (taken s p c).readWindow p c.w2.toNat = (s1, w) →
      DeviceCommand s p c (.swread p c) w s1
  | swcopy : c.w4.toNat ≤ 2 ^ 20 → c.w2.toNat + c.w4.toNat ≤ 2 ^ 48 → c.w3.toNat + c.w4.toNat ≤ 2 ^ 64 →
      c.w4.toNat ≤ (s.pkg p).copied + (8 - (c.w2.toNat + (s.pkg p).copied) % 8) →
      DeviceCommand s p c (.swcopy p c) 0
        (((taken s p c).copyWord p c.w2.toNat (hostAddr p.toNat c.w3.toNat) c.w4.toNat (s.pkg p).copied).1.updPkg p fun v =>
          { v with copied := 0 })
  | plimit : c.w2 = 0 → 600 ≤ c.w3.toNat → c.w3.toNat ≤ 1900 →
      DeviceCommand s p c (.limitPlimit p c) 0 ((taken s p c).updPkg p fun k => { k with plimit := c.w3 })
  | tlimit : c.w2 = 1 → 70 ≤ c.w3.toNat → c.w3.toNat ≤ 100 →
      DeviceCommand s p c (.limitTlimit p c) 0 ((taken s p c).updPkg p fun k => { k with tlimit := c.w3 })
  | threshold : 0x1000 ≤ c.w2.toNat → c.w2.toNat < 0x1400 → c.w2.toNat % 256 < 8 → c.w3.toNat < 2 ^ 32 →
      DeviceCommand s p c (.limitThreshold p c) 0
        ((taken s p c).updDie (BitVec.ofNat 12 (p.toNat + (c.w2.toNat - 0x1000) / 256 * 1024)) fun d => { d with
          limits := vset d.limits (c.w2.toNat % 256) (c.w3.setWidth 32) })
  | spaceRoot : ForDie s p c → c.w3.toNat < 1024 → fld c.w4 63 32 ≤ 0x10000 → c.w6 = 0 → c.w7 = 0 → bit c.w5 0 = true →
      (((taken s p c).die (tableDie c)).spaces.any fun e =>
        e.1 ≠ c.w3.toNat && e.2.job = BitVec.setWidth 32 c.w4 && e.2.key = fld c.w4 63 32) = false →
      fld c.w5 7 2 = 0 → fld c.w5 63 52 = 0 →
      DeviceCommand s p c (.tablewSpaceRoot p c) 0 ((taken s p c).updDie (tableDie c) fun v => { v with
        spaces := tabPut v.spaces c.w3.toNat ⟨c.w4.setWidth 32, fld c.w4 63 32, c.w5⟩ })
  | spaceRootOff : ForDie s p c → c.w3.toNat < 1024 → fld c.w4 63 32 ≤ 0x10000 → c.w6 = 0 → c.w7 = 0 → bit c.w5 0 = false →
      (((taken s p c).die (tableDie c)).spaces.any fun e =>
        e.1 ≠ c.w3.toNat && e.2.job = BitVec.setWidth 32 c.w4 && e.2.key = fld c.w4 63 32) = false →
      fld c.w5 7 2 = 0 → fld c.w5 63 52 = 0 →
      DeviceCommand s p c (.tablewSpaceRoot p c) 0 ((taken s p c).updDie (tableDie c) fun v => { v with
        spaces := tabDel v.spaces c.w3.toNat })
  | replicaSet : ForDie s p c → 1 ≤ c.w3.toNat → c.w3.toNat ≤ 255 →
      (setMembers c).all (fun m => m / 2 ^ 12 % 8 = 0) = true → c.w6 = 0 → c.w7 = 0 →
      DeviceCommand s p c (.tablewReplicaSet p c) 0 ((taken s p c).updDie (tableDie c) fun v => { v with
        rsets := tabSet v.rsets [] c.w3.toNat (((setMembers c).filter fun m => m ≥ 2 ^ 15).map (BitVec.ofNat 12)) })
  | mthr : ForDie s p c → c.w3.toNat < 8 → c.w4.toNat < 2 ^ 16 → c.w5 = 0 → c.w6 = 0 → c.w7 = 0 →
      DeviceCommand s p c (.tablewMthr p c) 0 ((taken s p c).updDie (tableDie c) fun v => { v with
        mthr := vset v.mthr c.w3.toNat (c.w4.setWidth 16) })
  | framesIn : ForDie s p c → poolForm c = true → c.w4.toNat + c.w5.toNat ≤ tierFrames (bit c.w3 0) →
      extentMeets (((taken s p c).die (tableDie c)).pool (bit c.w3 0)) c.w4.toNat c.w5.toNat = false →
      DeviceCommand s p c (.tablewFramePoolAdd p c) 0 ((taken s p c).updDie (tableDie c) fun v =>
        v.setPool (bit c.w3 0) (extentAdd (((taken s p c).die (tableDie c)).pool (bit c.w3 0)) c.w4.toNat c.w5.toNat))
  | framesOut : ForDie s p c → poolForm c = true → c.w4.toNat + c.w5.toNat ≤ tierFrames (bit c.w3 0) →
      extentHas (((taken s p c).die (tableDie c)).pool (bit c.w3 0)) c.w4.toNat c.w5.toNat = true →
      DeviceCommand s p c (.tablewFramePoolRemove p c) 0 ((taken s p c).updDie (tableDie c) fun v =>
        v.setPool (bit c.w3 0) (extentDel (((taken s p c).die (tableDie c)).pool (bit c.w3 0)) c.w4.toNat c.w5.toNat))
  | tablesIn : ForDie s p c → poolForm c = true → c.w4.toNat % 8192 = 0 →
      c.w4.toNat + 8192 * c.w5.toNat ≤ tierBytes (bit c.w3 0) →
      extentMeets (((taken s p c).die (tableDie c)).tables (bit c.w3 0)) (c.w4.toNat / 256) (32 * c.w5.toNat) = false →
      DeviceCommand s p c (.tablewTablePoolAdd p c) 0 ((taken s p c).updDie (tableDie c) fun v => v.setTables (bit c.w3 0)
        (extentAdd (((taken s p c).die (tableDie c)).tables (bit c.w3 0)) (c.w4.toNat / 256) (32 * c.w5.toNat)))
  | tablesOut : ForDie s p c → poolForm c = true → c.w4.toNat % 8192 = 0 →
      c.w4.toNat + 8192 * c.w5.toNat ≤ tierBytes (bit c.w3 0) →
      extentHas (((taken s p c).die (tableDie c)).tables (bit c.w3 0)) (c.w4.toNat / 256) (32 * c.w5.toNat) = true →
      DeviceCommand s p c (.tablewTablePoolRemove p c) 0 ((taken s p c).updDie (tableDie c) fun v => v.setTables (bit c.w3 0)
        (extentDel (((taken s p c).die (tableDie c)).tables (bit c.w3 0)) (c.w4.toNat / 256) (32 * c.w5.toNat)))
  | create (w : Nat → Word) (home slot ds) : c.w2 = 0 → c.w3.toNat % 8 = 0 → c.w3.toNat + 64 ≤ 2 ^ 64 →
      w = (taken s p c).hostWord p c.w3 → home = BitVec.ofNat 12 (fld (w 0) 11 0) →
      (taken s p c).rankExists (commandKey c) = false → descBad w = false → fld c.w1 15 0 ≤ fld (w 0) 39 24 →
      sluiceReaches (taken s p c) p home = true →
      ((taken s p c).ranks.any fun e => e.2.job = BitVec.ofNat 32 (fld c.w0 63 32) && e.2.home = home &&
        e.2.nrankm1.toNat ≠ fld (w 0) 39 24) = false →
      (taken s p c).freeImageSlot home = some slot → (taken s p c).freeDs home (fld (w 3) 26 16) = some ds →
      DeviceCommand s p c (.rankCreate p c) (wd slot) ((taken s p c).setRank (commandKey c)
        (Rank.new w (BitVec.ofNat 32 (fld c.w0 63 32)) (c.w1.setWidth 16) slot ds))

/-- The commands that act for a rank, under the conditions on which each succeeds, with VALUE and the state before the
completion is written; `r` is the rank and `t` the state that they find (R177, R188, R216 to R218, R232, R251, R252, R258,
R259, R268, R272, R275, R276, R284 to R286). -/
inductive RankCommand (t : State) (p : Pkg) (c : Command) (r : Rank) : Instr → Word → State → Prop where
  | write (s1) : 1 ≤ c.w3.toNat → c.w3.toNat ≤ 32 →
      t.putPieces (r.client (commandKey c)) c.w2.toNat (packNat 64 [c.w4.toNat, c.w5.toNat, c.w6.toNat, c.w7.toNat])
        (cut c.w2 c.w3.toNat) = (s1, .ok ()) → RankCommand t p c r (.write p c) 0 s1
  | copyin (s1) : copyForm c = true →
      t.copyInPieces (r.client (commandKey c)) c.w2.toNat (hostAddr p.toNat c.w3.toNat) (cut c.w2 c.w4.toNat) = (s1, .ok ()) →
      RankCommand t p c r (.copyin p c) 0 s1
  | copyout (s1) : copyForm c = true →
      t.copyOutPieces (r.client (commandKey c)) c.w2.toNat (hostAddr p.toNat c.w3.toNat) (cut c.w2 c.w4.toNat) = (s1, .ok ()) →
      RankCommand t p c r (.copyout p c) 0 s1
  | read (s1 v) : c.w2.toNat % 8 = 0 → t.readVa (r.client (commandKey c)) c.w2 8 = (s1, .ok v) →
      RankCommand t p c r (.read p c) (wd v) s1
  | signal (s1) : fld c.w2 63 57 = 0 → c.w2.toNat % 64 = 0 → fld c.w2 56 52 ≠ 31 →
      t.writeVa (r.client (commandKey c)) c.w2 8 c.w3.toNat = (s1, .ok ()) → RankCommand t p c r (.signal p c) 0 s1
  | launch : c.w3.toNat < 4 → t.rank? (commandKey c) = some r → (vget r.queues [] c.w3.toNat).length < 256 →
      RankCommand t p c r (.launch p c) 0 (t.setRank (commandKey c) { r with
        queues := vset r.queues c.w3.toNat (vget r.queues [] c.w3.toNat ++ [⟨c.w2, bit c.w0 8, true⟩]) })
  | cntw : 1 ≤ c.w2.toNat → c.w2.toNat < 1024 → c.w3.toNat < 2 ^ 32 → RankCommand t p c r (.cntw p c) 0
      (t.updRank (commandKey c) fun v => { v with counters := tabSet v.counters 0 c.w2.toNat (c.w3.setWidth 32) })
  | csrw (r1) : rankCsr c.w2.toNat = true → (c.w2.toNat < 0x481 ∨ 0x49D < c.w2.toNat) →
      r.writeCsr c.w2.toNat c.w3 = some r1 → RankCommand t p c r (.csrw p c) 0 (t.setRank (commandKey c) r1)
  | dmap : 0x481 ≤ c.w2.toNat → c.w2.toNat ≤ 0x49D → RankCommand t p c r (.csrw p c) 0
      { t.setRank (commandKey c) { r with dmap := vset r.dmap (c.w2.toNat - 0x480) (c.w3 &&& 0x8000000000000FFF) } with
        strands := t.strands.map fun e => if e.2.rank = commandKey c then
          (e.1, { e.2 with dmap := vset e.2.dmap (c.w2.toNat - 0x480) (c.w3 &&& 0x8000000000000FFF) }) else e }
  | communicator : tableForm c false = true → c.w3.toNat < 64 → fld c.w6 63 48 = 0 → c.w7 = 0 → commBad c = false →
      RankCommand t p c r (.tablewCommunicator p c) 0 (t.updRank (commandKey c) fun v => { v with
        comms := tabSet v.comms Comm.reset c.w3.toNat
          ⟨c.w4 &&& 0x000FFFFFFFF7FFFF, c.w5, c.w6.setWidth 48, 0, 0⟩ })
  | endpoint (s1) : tableForm c false = true → fld c.w4 62 21 = 0 → fld c.w4 19 18 = 0 → c.w5 = 0 → c.w6 = 0 → c.w7 = 0 →
      c.w3.toNat ≤ r.nrankm1.toNat → t.putEndpoint (commandKey c) r c.w3.toNat c.w4 = (s1, .ok ()) →
      RankCommand t p c r (.tablewEndpoint p c) 0 s1
  | saveBases : tableForm c false = true → c.w3 = 0 → fld c.w5 63 16 = 0 → c.w7 = 0 → c.w4.toNat % 2 ^ 21 = 0 →
      c.w6.toNat % 2 ^ 21 = 0 → RankCommand t p c r (.tablewSaveBases p c) 0 (t.updRank (commandKey c) fun v => { v with
        savebase := c.w4, nimg := c.w5.toNat, csbase := c.w6 })
  | migrate : c.w2.toNat < 2 ^ 12 → t.reach (sluiceDie p) (c.w2.setWidth 12) 0 = true →
      RankCommand t p c r (.migrate p c) 0 (t.latchMove (commandKey c) (c.w2.setWidth 12))
  | invalPage (s1 q) : c.w3 = 0 → t.spaceCheck (r.client (commandKey c)) c.w2 = (s1, .ok q) →
      s1.translatedOut r.job q.key = false → RankCommand t p c r (.invalPage p c) 0 (s1.tlbInval r.job q)
  | invalSpace (s1 q) : c.w3 = 1 → t.spaceCheck (r.client (commandKey c)) c.w2 = (s1, .ok q) →
      s1.translatedOut r.job q.key = false → RankCommand t p c r (.invalSpace p c) 0 (s1.invalSpace q.die r.job q.key)
  | ends : c.w2 = 1 → c.w3 = 0 → (t.nests.any fun e => e.2.rank = commandKey c) = false →
      (t.gangs.any fun e => e.2.rank = commandKey c && e.2.resident) = false → r.jobs = [] → r.precopy = none →
      RankCommand t p c r (.rankEnd p c) 0 { t with
        ranks := tabDel t.ranks (commandKey c)
        owner := t.owner.filter fun e => e.2.1 ≠ commandKey c
        csSeg := t.csSeg.filter fun e => e.2.rank ≠ commandKey c
        dies := t.dies.map fun e => (e.1, { e.2 with forwards := e.2.forwards.filter fun f => f.rank ≠ commandKey c }) }
  | endsMoving (m) : c.w2 = 1 → c.w3 = 0 → (t.nests.any fun e => e.2.rank = commandKey c) = false →
      (t.gangs.any fun e => e.2.rank = commandKey c && e.2.resident) = false → r.jobs = [] → r.precopy = some m →
      RankCommand t p c r (.rankEnd p c) 0 ((t.giveBack m).endRank (commandKey c) { r with precopy := none })
  | evread : c.w2.toNat + 32 * (r.evq.take c.w3.toNat).length ≤ 2 ^ 64 →
      RankCommand t p c r (.evread p c) (wd (r.evq.take c.w3.toNat).length)
        ((t.putEvents (hostAddr p.toNat c.w2.toNat) (r.evq.take c.w3.toNat)).updRank (commandKey c) fun v => { v with
          evq := v.evq.drop (r.evq.take c.w3.toNat).length })
  | snap : regionOk c.w2 = true → c.w3.toNat < 2 ^ 24 → layoutOk (fld c.w3 7 0) (fld c.w3 15 8) = true →
      fld c.w3 23 16 < fld c.w3 15 8 → t.reach (sluiceDie p) (regionDie c.w2) 0 = true →
      RankCommand t p c r (.snap p c) 0 (t.updRank (commandKey c) fun v => { v with snapReq := some ⟨c.w2, c.w3⟩ })
  | parity (all g members) : t.dieHeld (sluiceDie p) = false → c.w2.toNat < 2 ^ 48 → c.w3.toNat < 2 ^ 10 →
      all = t.sealedFor r.job (c.w2.setWidth 48) → g = (all.map fun e => e.2.gsize).foldl max 0 → g ≠ 0 →
      members = (List.range g).filterMap (memberOf all c.w3.toNat) → members.length = g →
      (∀ m, m ∈ members → t.reach (sluiceDie p) (sluiceDie m) 0 = true) →
      RankCommand t p c r (.parity p c) 0
        (let data := members.map fun m => t.dataOf (c.w2.setWidth 48) ((all.filter fun e => e.1 = m).map (·.2))
        (List.range (rowCount g data)).foldl (fun (acc : State) q =>
          acc.putRow (members.getD (q % g) 0) ⟨r.job, members, c.w2.setWidth 48, q, rowXor g q data none⟩) t)
  | restore (w0 entries named step l s1) : t.dieHeld (sluiceDie p) = false → c.w2.toNat % 8 = 0 → w0 = t.hostWord p c.w2 0 →
      entries = (List.range (fld w0 10 0)).map (fun k => t.hostWord p c.w2 (k + 1)) → listBad w0 entries = false →
      c.w2.toNat + (8 * fld w0 10 0 + 8) ≤ 2 ^ 64 → (entries.any fun w => !t.reach (sluiceDie p) (regionDie w) 0) = false →
      named = entries.map (fun w => ⟨pkgOf (regionDie w), t.regionShards r.job (fld w0 23 16) w⟩) →
      (t.stepsOf named r.job).findSome? (fun step =>
        if shardsWhole (t.shardsOf named (fld w0 23 16) (fld w0 31 24) r.job step) r.nrankm1.toNat then
          (pickShards (t.shardsOf named (fld w0 23 16) (fld w0 31 24) r.job step)
            (t.ranks.filter fun e => e.2.job = r.job)).map fun x => (step, x)
        else none) = some (step, l) → t.restoreAll l = some s1 →
      RankCommand t p c r (.restore p c) (wd (BitVec.toNat step)) s1

/-- The commands on a FAULTED bank (R250, R251), under the conditions on which each succeeds, with the state before the
completion is written. -/
inductive BankCommand (t : State) (p : Pkg) (c : Command) (r : Rank) (u : Nat) (m : Strand) : Instr → State → Prop where
  | greg : c.w3.toNat < 4 → c.w4.toNat ≤ 63 →
      BankCommand t p c r u m (.bankwGreg p c) (t.setStrand u (m.setReg (c.w4.setWidth 6) c.w5))
  | csr (s1) : c.w3.toNat < 4 → userCsr c.w4.toNat = true → c.w4.toNat ≠ 0x012 →
      t.csrWrite u m r m.rrb c.w4.toNat c.w5 c.w5 = .inr s1 → BankCommand t p c r u m (.bankwCsr p c) s1
  | rot (s1) : c.w3.toNat < 4 → c.w4 = 0x012 → t.csrWrite u m r m.rrb 0x012 c.w5 c.w5 = .inr s1 →
      BankCommand t p c r u m (.bankwCsr p c) (s1.upd u Strand.rotHere)
  | tile (k) : c.w3.toNat < 4 → c.w5.toNat + 4096 ≤ 2 ^ 64 → c.w4.toNat ≤ 63 → m.slot m.rrb (c.w4.setWidth 6) = some k →
      BankCommand t p c r u m (.bankwTile p c) { t with
        tiles := tabSet t.tiles 0 (unitKey (locCore c.w2.toNat) (m.base + k))
          (BitVec.ofNat 32768 (t.rd (hostAddr p.toNat c.w5.toNat) 4096)) }
  | retry : c.w3.toNat < 8 → BankCommand t p c r u m (.resumeRetry p c) (t.resumeBank u m c.w2.toNat (bit c.w3 2))
  | skip (early m1) : c.w3.toNat < 8 → fld (vget m.frame 0 0) 7 0 ≠ 0x40 → fld (vget m.frame 0 0) 7 0 ≠ 0x50 →
      fld (vget m.frame 0 0) 7 0 ≠ 0x51 → (m.faultStream = .s → m.faultAst = none) →
      early = (if m.faultStream = Stream.s then tabAt m.early 0 m.s.pos else 0) →
      m1 = { m with early := if m.faultStream = Stream.s then tabDel m.early m.s.pos else m.early } →
      BankCommand t p c r u m (.resumeSkip p c)
        ((t.resumeBank u (m1.skipWord m.faultStream) c.w2.toNat (bit c.w3 2)).freeDrained u (locCore c.w2.toNat) early)
  | skipAst (a) : c.w3.toNat < 8 → fld (vget m.frame 0 0) 7 0 ≠ 0x40 → fld (vget m.frame 0 0) 7 0 ≠ 0x50 →
      fld (vget m.frame 0 0) 7 0 ≠ 0x51 → m.faultStream = .s → m.faultAst = some a →
      BankCommand t p c r u m (.resumeSkip p c)
        ((t.resumeBank u (m.dropAst a.pos) c.w2.toNat (bit c.w3 2)).freeDrained u (locCore c.w2.toNat) a.freed)
  | ends (s1) : c.w3.toNat < 8 → t.killStrand u = .ok s1 → BankCommand t p c r u m (.resumeEnd p c) s1

/-- The pre-emptions, which complete later (R230, R497), with the state in which they leave the machine; `ticket` is their
place among the completions to come. -/
inductive LaterCommand (t : State) (p : Pkg) (c : Command) (r : Rank) (ticket : Nat) : Instr → State → Prop where
  | preemptGang (nid n) : c.w2 = 0 →
      (t.nestsOf (commandKey c)).find? (fun n => n.2.addr = c.w3 && t.gangs.any fun g =>
        g.2.nest = n.1 && g.2.resident && g.2.ordinal = c.w4.toNat) = some (nid, n) →
      LaterCommand t p c r ticket (.preemptGang p c) (t.addJob (commandKey c)
        (t.switchOrder fun _ g => g.nest = nid && c.w4.toNat ≤ g.ordinal) (.preempt p.toNat ticket))
  | preemptOut (cluster) : c.w2 = 1 → c.w4 = BitVec.allOnes 64 → c.w3.toNat < r.parts →
      tabGet r.clusters c.w3.toNat = some cluster →
      LaterCommand t p c r ticket (.preemptPartition p c) (t.addJob (commandKey c)
        (t.switchOrder fun _ g => (t.gangs.filter fun g => g.2.rank = commandKey c && g.2.lp = c.w3.toNat &&
          g.2.resident).any fun h => h.2.nest = g.nest && h.2.ordinal ≤ g.ordinal)
        (.exchange c.w3.toNat none 0 p.toNat ticket))
  | preemptSwap (cluster key lp) : c.w2 = 1 → incoming c.w4 = some (key, lp) → fld c.w4 31 21 = 0 → c.w3.toNat < r.parts →
      tabGet r.clusters c.w3.toNat = some cluster → t.mayEnter key lp (locDie cluster) = true →
      LaterCommand t p c r ticket (.preemptPartition p c) (t.addJob (commandKey c)
        (t.switchOrder fun _ g => (t.gangs.filter fun g => g.2.rank = commandKey c && g.2.lp = c.w3.toNat &&
          g.2.resident).any fun h => h.2.nest = g.nest && h.2.ordinal ≤ g.ordinal)
        (.exchange c.w3.toNat (some key) lp p.toNat ticket))

end Sys2Proof
end

