-- ==== Sys2Proof/Certificates/Slice0/Obligations.lean ====
section
/-! DEFINITION. The statements about the machine, each a proposition of its own with the rules that it formalises. -/

open Sys2Proof Sys2Proof.Machine

/-! ### Steps, decoding, reset -/

/-- A step runs the decoded instruction (R45, R280, R281, R303; that a turn names what moves is the model's, log 1). When the
turn at the head names a stream that may pass its next word, and the word met there carries the stream's tag and decodes to
`i` with no operand still awaited, the step is `exec` of `i` at the state with the turn removed, the strand and stream noted
as the ones that move, and the word recorded. A turn of a Sluice runs the command at SQHEAD, and a turn of an event its row. A
turn begins with the lists of the pages that reclaims have still to move, from which it takes those that are mapped no more
(R193, log 77); it changes nothing else, and nothing at all where no such list holds a page. -/
def Obligations.StepRunsDecodedWord : Prop :=
  (∀ (s s0 s1 : State) (loc : Loc) (t : Stream) (rest : List Turn) (u : Nat) (m m1 : Strand) (w : WalkWord) (i : Instr),
      s.turns = .stream loc t :: rest → s0 = State.settle { s with turns := rest } →
      s0.onBank loc.toNat = some (u, m) → s0.strand u = some m →
      m.canIssue = true → s0.stepOpen u m = false → (m.stream t).wait = .none → m.slipOk t = true →
      State.fetch { s0 with cur := some (u, t) } u m t = (s1, .ok w) → s1.strand u = some m1 →
      tagOf w.bits = t → decode w.bits = some i → m1.hazard t i = false →
      step s = exec i s1) ∧
  (∀ (s s0 : State) (p : Pkg) (rest : List Turn),
      s.turns = .sluice p :: rest → s0 = State.settle { s with turns := rest } →
      (s0.pkg p).accepts = true → (s0.pkg p).sqhead ≠ (s0.pkg p).sqtail →
      step s = exec (decodeCommand p (tabAt (s0.pkg p).ring zeroCommand (s0.pkg p).sqhead.toNat)) s0) ∧
  (∀ (s s0 : State) (i : Instr) (n : Nat) (rest : List Turn),
      s.turns = .event i n :: rest → s0 = State.settle { s with turns := rest } → step s = exec i { s0 with subject := n }) ∧
  ∀ s : State, (∃ l, s.settle = { s with dies := l }) ∧
    ((∀ e, e ∈ s.dies → ∀ p, p ∈ e.2.polders → p.2.todo = []) → s.settle = s)

/-- The word that a stream meets (R45, R303): the one recorded at its position, or else the four bytes at its program counter in
device memory, read by R174, little-endian (R13), and recorded for the other streams. That the stream which meets the word
first reads it (log 10), that the rotation in force then is the word's (log 66), and that it is read through the die map as it
stands then, also where an earlier CSR write of the C stream has still to change it (log 100), are the model's choices. -/
def Obligations.FetchReadsFourBytes : Prop :=
  (∀ (s : State) (u : Nat) (m : Strand) (t : Stream) (w : WalkWord),
    m.wordAt (m.stream t).pos = some w → s.fetch u m t = (s, .ok w)) ∧
  ∀ (s s1 : State) (u : Nat) (m m1 : Strand) (t : Stream) (c : Client) (a : Target),
    m.wordAt (m.stream t).pos = none → fld (m.stream t).pc 56 52 ≠ 31 → s.clientOf m = some c →
    s.access c (m.stream t).pc 4 false = (s1, .ok a) → s1.strand u = some m1 →
    ∃ w : WalkWord,
      w.pos = (m.stream t).pos ∧ w.addr = (m.stream t).pc ∧ w.rot = m.rrb ∧ w.done = false ∧
      w.bits.toNat = (Memory.read s1.mem a.addr).toNat + 2 ^ 8 * (Memory.read s1.mem (a.addr + 1)).toNat +
        2 ^ 16 * (Memory.read s1.mem (a.addr + 2)).toNat + 2 ^ 24 * (Memory.read s1.mem (a.addr + 3)).toNat ∧
      s.fetch u m t = (s1.setStrand u { m1 with walk := m1.walk ++ [w] }, .ok w)

/-- The worked encodings of the spec's encoding file decode to the instructions that they are listed for, and the words that it
lists as no instruction decode to none. -/
def Obligations.WorkedEncodingsDecode : Prop :=
  decode 0x011461C0 = some (.add 5 6 7) ∧
  decode 0x03208FFF = some (.addi 8 8 (-1)) ∧
  decode 0x11200FFD = some (.bne 8 0 (-3)) ∧
  decode 0x20247808 = some (.lds 9 7 2 8) ∧
  decode 0x1C000002 = some .exit ∧
  decode 0x39000004 = some (.fence .c 4) ∧
  decode 0x41007100 = some (.tld 0 7 0x100) ∧
  decode 0x7B000001 = some (.waitk .l 0 1) ∧
  decode 0x81041007 = some (.vadd 1 1 0 7) ∧
  decode 0xA9000005 = some (.bmz 5) ∧
  decode 0xFA140003 = some (.sigk .s 5 3) ∧
  decode 0xF8000000 = some (.nop .s) ∧
  decode 0x011461FF = none ∧ decode 0x0E045000 = none ∧ decode 0x39000005 = none ∧ decode 0x74000000 = none

/-- Decoding undoes encoding: for every well-formed instruction that has a word, with every operand at every value that its
encoding admits, decode of the word is the instruction. -/
def Obligations.DecodeUndoesEncode : Prop :=
  ∀ (i : Instr) (w : IWord), i.wf = true → encode i = [w] → decode w = some i

/-- A word that decodes is the encoding of what it decodes to: no bit of it is left out of account, and what it decodes to is
well formed. -/
def Obligations.EncodeUndoesDecode : Prop :=
  ∀ (w : IWord) (i : Instr), decode w = some i → encode i = [w] ∧ i.wf = true

/-- Every Sluice command selects exactly one row: the row it selects is well formed and carries the command, and a well-formed
row of a command is the one that its command selects (R283, R284, R287, R496, R497). -/
def Obligations.CommandsSelectOneRow : Prop :=
  (∀ (p : Pkg) (c : Command), (decodeCommand p c).wf = true ∧ encodeCommand (decodeCommand p c) = some c) ∧
  (∀ (i : Instr) (c : Command), i.wf = true → encodeCommand i = some c → ∃ p, decodeCommand p c = i)

/-- Every instruction runs: no instruction is refused, an instruction stops only where a word is to be executed while no strand
is resident for it, and every event, host action and command answers a next state. -/
def Obligations.EveryInstructionRuns : Prop :=
  ∀ (i : Instr) (s : State), (∃ t, exec i s = .next t) ∨
    (exec i s = .fault .noStrand ∧ (encode i ≠ [] ∨ ∃ w, i = .illegalWord w) ∧
      ¬ ∃ u t m, s.cur = some (u, t) ∧ s.strand u = some m ∧ m.place.isSome = true)

/-- Memory keeps its canonical form in every step, from every state. -/
def Obligations.StepKeepsMemoryCanonical : Prop :=
  ∀ s t : State, MemOk s → step s = .next t → MemOk t

/-- Reset leaves memory in its canonical form, with nothing listed, and every package OFF with the register values that the
spec states: the window's registers zero (R281), PLIMIT 1900 and TLIMIT 95 (R294), an empty start log (R278, R292), no route,
no rank, no strand, no message. -/
def Obligations.ResetLeavesPackagesOff : Prop :=
  MemOk State.reset ∧ State.reset.mem = [] ∧ State.reset.fe = [] ∧ State.reset.strands = [] ∧ State.reset.ranks = [] ∧
  State.reset.gangs = [] ∧ State.reset.nests = [] ∧ State.reset.msgs = [] ∧
  ∀ p : Pkg, (State.reset.pkg p).state = .off ∧ (State.reset.pkg p).warmok = false ∧ (State.reset.pkg p).trip = false ∧
    (State.reset.pkg p).log = [] ∧ (State.reset.pkg p).sqtail = 0 ∧ (State.reset.pkg p).sqhead = 0 ∧
    (State.reset.pkg p).cqset = false ∧ (State.reset.pkg p).cqsize = 0 ∧ (State.reset.pkg p).cqhead = 0 ∧
    (State.reset.pkg p).cqtail = 0 ∧ (State.reset.pkg p).nqset = false ∧ (State.reset.pkg p).nqsize = 0 ∧
    (State.reset.pkg p).nqhead = 0 ∧ (State.reset.pkg p).nqtail = 0 ∧ (State.reset.pkg p).ovr = false ∧
    (State.reset.pkg p).nqovf = false ∧ (State.reset.pkg p).nqlost = 0 ∧ (State.reset.pkg p).plimit = 1900 ∧
    (State.reset.pkg p).tlimit = 95 ∧ (State.reset.pkg p).routes = [] ∧ (State.reset.pkg p).pending = []

/-! ### A strand's words: registers, retirement, checks, faults -/

/-- `g0` reads as zero and a write of it changes nothing; any other register reads as last written, and a write leaves every
other register as it was (R71). A retired word is passed by its own stream only (R45, R51): the position advances by one; the
program counter goes to the next word, or from the second delay slot to where the branch leads; no other stream and no
register changes. -/
def Obligations.RegistersAndRetirement : Prop :=
  (∀ (m : Strand) (i j : Field) (v : Word),
    m.reg 0 = 0 ∧ m.setReg 0 v = m ∧
    (i ≠ 0 → (m.setReg i v).reg i = v) ∧ (j ≠ i → (m.setReg i v).reg j = m.reg j) ∧
    SameBeside m (m.setReg i v) ∧ (m.setReg i v).c = m.c ∧ (m.setReg i v).l = m.l ∧ (m.setReg i v).x = m.x ∧
    (m.setReg i v).s = m.s ∧ (m.setReg i v).walk = m.walk ∧ (m.setReg i v).boq = m.boq) ∧
  ∀ (m : Strand) (t k : Stream),
    ((m.retire t).stream t).pos = (m.stream t).pos + 1 ∧
    ((m.retire t).stream t).pc = (if (m.stream t).delay = 1 then (m.stream t).target else (m.stream t).pc + 4) ∧
    ((m.retire t).stream t).delay = (m.stream t).delay - 1 ∧ ((m.retire t).stream t).wait = .none ∧
    (k ≠ t → (m.retire t).stream k = m.stream k) ∧
    (m.retire t).g = m.g ∧ SameBeside m (m.retire t)

/-- The checks of R305 before a word's own entry: a word that no entry defines raises ILLEGAL at the stream of its tag, a word
barred from delay slots raises SLOT in one (R52), and a privileged word of a strand without privilege raises PRIV (R315). -/
def Obligations.ChecksComeBeforeTheEntry : Prop :=
  (∀ (w : IWord) (s : State) (u : Nat) (m : Strand),
      Ready s u m → exec (.illegalWord w) s = .next (s.raise u (tagOf w) cILLEGAL 0 0)) ∧
  (∀ (i : Instr) (t : Stream) (s : State) (u : Nat) (m : Strand),
      Barred i t → Ready s u m → (m.stream t).delay ≠ 0 → exec i s = .next (s.raise u t cSLOT 0 0)) ∧
  (∀ (i : Instr) (s : State) (u : Nat) (m : Strand),
      Privileged i → Ready s u m → m.priv = false → exec i s = .next (s.raise u .c cPRIV 0 0))

/-- Taking a fault (R236 to R238, R89): with no other fault noted and nothing in flight, a word that raises a cause other than
TRAP and SYS, which retire (`TrapsStopAtTheNextWord`), leaves its
strand FAULTED with FSTAT holding the cause, the stream and FV, FADDR and FPROG as given, FPC of its stream at the word and
the FPC of every other stream at the word that it has not passed, FACC its banks and FSLOT zero; a HELD lease is LAPSED, every
running command has stopped, the general registers, tokens, masks, tiles' configurations and every other strand are as they
were, and the strand holds the matrix array no more. A rank whose event queue has room gets one BANK_FAULT event (R252). -/
def Obligations.FaultIsTaken : Prop :=
  ∀ (s : State) (u : Nat) (m : Strand) (t : Stream) (cause : BitVec 8) (addr prog : Word) (loc : Nat),
    s.strand u = some m → m.place = some loc → m.noted = [] → m.busy = false → m.state ≠ .faulted → m.state ≠ .ended →
    cause ≠ 0x50 → cause ≠ 0x51 →
    ∃ n : Strand, (s.raise u t cause addr prog).strand u = some n ∧
      n.state = .faulted ∧ n.noted = [] ∧
      n.frame[0] = wd (cause.toNat + t.tag.toNat * 256 + 0x8000) ∧ n.frame[1] = addr ∧
      n.frame[2] = m.c.pc ∧ n.frame[3] = m.l.pc ∧ n.frame[4] = m.x.pc ∧ n.frame[5] = m.s.pc ∧
      n.frame[6] = prog ∧ n.frame[7] = s.ownedMask u false ∧ n.frame[8] = 0 ∧
      (∀ k, (n.stream k).pc = (m.stream k).pc ∧ (n.stream k).pos = (m.stream k).pos ∧
        (n.stream k).delay = (m.stream k).delay ∧ (n.stream k).wait = .none) ∧
      n.lease = (match m.lease with
        | .held _ _ => .lapsed
        | l => l) ∧
      n.cmds = m.cmds.map (fun e => (e.1, e.2.stop)) ∧
      n.g = m.g ∧ n.tok = m.tok ∧ n.masks = m.masks ∧ n.boq = m.boq ∧ n.walk = m.walk ∧ n.tcfg = m.tcfg ∧
      n.tstat = m.tstat ∧ n.place = m.place ∧
      (∀ v, v ≠ u → (s.raise u t cause addr prog).strand v = s.strand v) ∧
      (s.raise u t cause addr prog).array = s.array.filter (fun e => e.2 ≠ u) ∧
      ∀ r, s.rank? m.rank = some r → r.evq.length < 1024 → ∃ q,
        (s.raise u t cause addr prog).rank? m.rank = some q ∧ q.evSeq = r.evSeq + 1 ∧ q.evOvf = r.evOvf ∧
        q.evq = r.evq ++ [⟨BitVec.ofNat 128 (0x01 + (cause.toNat * 256 + loc * 65536) % 2 ^ 64 +
          ((s.gang? m.gang).map (·.ordinal)).getD 0 % 2 ^ 32 * 2 ^ 64), r.evSeq, r.gstep⟩]

/-- A strand with words in flight does not stop yet: the fault is noted, and the frame, the bank and everything else are as they
were (R236, step 2). Once nothing is in flight the stop's row takes the recorded fault, with which a TRAP or SYS retires (R248);
until then it changes nothing. -/
def Obligations.FaultsAwaitWordsInFlight : Prop :=
  (∀ (s : State) (u : Nat) (m : Strand) (t : Stream) (cause : BitVec 8) (addr prog : Word),
      s.strand u = some m → m.busy = true →
      s.raise u t cause addr prog = s.setStrand u { m with noted := m.noted ++
        [{ sync := true, pos := (m.stream t).pos, pc := (m.stream t).pc, slot := 0, stream := t, cause := cause, addr := addr
           prog := prog }] }) ∧
  (∀ (s : State) (loc : Loc) (u : Nat) (m : Strand) (n : Noted),
      s.onBank loc.toNat = some (u, m) → s.strand u = some m → m.recorded = some n → m.state ≠ .faulted → m.state ≠ .ended →
      (m.busy = true → exec (.strandFaultStop loc) s = .next s) ∧
      (m.busy = false → ∃ t k, exec (.strandFaultStop loc) s = .next t ∧ t.strand u = some k ∧ k.state = .faulted ∧
        (n.retires = false → k.frame = m.frameOf n (s.ownedMask u false)) ∧
        (n.retires = true → k.frame = (m.retire .c).frameOf n (s.ownedMask u false) ∧ k.c.pos = m.c.pos + 1) ∧ k.g = m.g))

/-! ### Integer words -/

/-- The integer words of the C stream whose rules are R333, R340, R363, R394, R402, R404, R408, R420, R421, R424, R431 and R477: each
completes, writes its one register with the value of its rule, and retires; nothing else changes. Their words are those of their
rules. -/
def Obligations.IntegerWordsComplete : Prop :=
  (∀ (i : Instr) (s : State) (u : Nat) (m : Strand) (d : Field) (v : Word),
    i.wf = true → ¬ OwnRule i → Ready s u m → IntResult (seedOf s m) m.reg i d v →
    exec i s = .next (s.setStrand u ((m.setReg d v).retire .c))) ∧
  ∀ d a b : Field,
    encode (.add d a b) = [wordRR 0x01 d a b 0x00] ∧ encode (.sub d a b) = [wordRR 0x01 d a b 0x01] ∧
    encode (.mul d a b) = [wordRR 0x01 d a b 0x02] ∧ encode (.mulh d a b) = [wordRR 0x01 d a b 0x03] ∧
    encode (.mulhu d a b) = [wordRR 0x01 d a b 0x04] ∧ encode (.and d a b) = [wordRR 0x01 d a b 0x09] ∧
    encode (.or d a b) = [wordRR 0x01 d a b 0x0A] ∧ encode (.xor d a b) = [wordRR 0x01 d a b 0x0B] ∧
    encode (.shl d a b) = [wordRR 0x01 d a b 0x0C] ∧ encode (.shr d a b) = [wordRR 0x01 d a b 0x0D] ∧
    encode (.sra d a b) = [wordRR 0x01 d a b 0x0E] ∧ encode (.slt d a b) = [wordRR 0x01 d a b 0x0F] ∧
    encode (.sltu d a b) = [wordRR 0x01 d a b 0x10] ∧ encode (.min d a b) = [wordRR 0x01 d a b 0x11] ∧
    encode (.max d a b) = [wordRR 0x01 d a b 0x12] ∧ encode (.minu d a b) = [wordRR 0x01 d a b 0x13] ∧
    encode (.maxu d a b) = [wordRR 0x01 d a b 0x14] ∧ encode (.sel d a b) = [wordRR 0x01 d a b 0x15] ∧
    encode (.clz d a) = [wordRR 0x01 d a 0 0x16] ∧ encode (.popc d a) = [wordRR 0x01 d a 0 0x17] ∧
    encode (.shli d a b) = [wordRR 0x02 d a b 0x00] ∧ encode (.shri d a b) = [wordRR 0x02 d a b 0x01] ∧
    encode (.srai d a b) = [wordRR 0x02 d a b 0x02] ∧ ∀ i : BitVec 12,
      encode (.addi d a i) = [wordRI 0x03 d a i] ∧ encode (.andi d a i) = [wordRI 0x04 d a i] ∧
      encode (.ori d a i) = [wordRI 0x05 d a i] ∧ encode (.xori d a i) = [wordRI 0x06 d a i] ∧
      encode (.slti d a i) = [wordRI 0x07 d a i]

/-- DIV and DIVU write the quotients (R371), and REM and REMU the remainders that complete them (R412); none ever faults. For every
pair of operands, DIV × g(b) + REM = g(a) mod 2^64, and so for DIVU and REMU. -/
def Obligations.DivisionIdentity : Prop :=
  ∀ (s : State) (u : Nat) (m : Strand) (q r a b : Field), Ready s u m →
    (let qv : Int := if (m.reg a).toInt = -2 ^ 63 ∧ (m.reg b).toInt = -1 then -2 ^ 63 else (m.reg a).toInt.tdiv (m.reg b).toInt
     let rv : Word := if m.reg b = 0 then m.reg a
       else if (m.reg a).toInt = -2 ^ 63 ∧ (m.reg b).toInt = -1 then 0
       else BitVec.ofInt 64 ((m.reg a).toInt - qv * (m.reg b).toInt)
     exec (.div q a b) s = .next (s.setStrand u ((m.setReg q (if m.reg b = 0 then -1 else BitVec.ofInt 64 qv)).retire .c)) ∧
     exec (.rem r a b) s = .next (s.setStrand u ((m.setReg r rv).retire .c))) ∧
    (let qv : Word := if m.reg b = 0 then BitVec.allOnes 64 else BitVec.ofNat 64 ((m.reg a).toNat / (m.reg b).toNat)
     let rv : Word := if m.reg b = 0 then m.reg a else BitVec.ofNat 64 ((m.reg a).toNat % (m.reg b).toNat)
     exec (.divu q a b) s = .next (s.setStrand u ((m.setReg q qv).retire .c)) ∧
     exec (.remu r a b) s = .next (s.setStrand u ((m.setReg r rv).retire .c))) ∧
    (q ≠ 0 → r ≠ 0 →
      (∃ t1 n1 t2 n2, exec (.div q a b) s = .next t1 ∧ t1.strand u = some n1 ∧ exec (.rem r a b) s = .next t2 ∧
        t2.strand u = some n2 ∧ n1.reg q * m.reg b + n2.reg r = m.reg a) ∧
      (∃ t1 n1 t2 n2, exec (.divu q a b) s = .next t1 ∧ t1.strand u = some n1 ∧ exec (.remu r a b) s = .next t2 ∧
        t2.strand u = some n2 ∧ n1.reg q * m.reg b + n2.reg r = m.reg a)) ∧
    encode (.div q a b) = [wordRR 0x01 q a b 0x05] ∧ encode (.divu q a b) = [wordRR 0x01 q a b 0x06] ∧
    encode (.rem r a b) = [wordRR 0x01 r a b 0x07] ∧ encode (.remu r a b) = [wordRR 0x01 r a b 0x08]

/-- The other integer words complete: LI writes its immediate (R302), BFX and BFI take and put a bit field (R350, R351), RNG draws
(R413). LIH takes bits [23:0] of the register of the LI before it and puts its immediate, sign-extended, above them; where the
previous word of the walk is no LI it raises ILLEGAL (R302). -/
def Obligations.ConstantFieldAndDrawWordsComplete : Prop :=
  (∀ (i : Instr) (s : State) (u : Nat) (m : Strand) (d : Field) (v : Word),
    i.wf = true → OwnRule i → Ready s u m → IntResult (seedOf s m) m.reg i d v →
    exec i s = .next (s.setStrand u ((m.setReg d v).retire .c))) ∧
  ∀ (s : State) (u : Nat) (m : Strand) (i : BitVec 24), Ready s u m →
    (∀ d, m.lihTarget = some d → ∃ v : Word,
      v.toInt = i.toInt * 2 ^ 24 + ((m.reg d).toNat % 2 ^ 24 : Nat) ∧
      exec (.lih i) s = .next (s.setStrand u ((m.setReg d v).retire .c))) ∧
    (m.lihTarget = none → exec (.lih i) s = .next (s.raise u .c cILLEGAL 0 0))

/-- The integer words leave everything but their strand as it was: all of memory, every other strand, and of their own strand
every register but the destination, and every special register; where they do not run, nothing changes at all. -/
def Obligations.IntegerWordsFrame : Prop :=
  ∀ (i : Instr) (s t : State) (seed : BitVec 32) (g : Field → Word) (d : Field) (v : Word),
    IntResult seed g i d v → exec i s = .next t →
    SameFabric s t ∧ ∃ u m n, s.cur.map (·.1) = some u ∧ s.strand u = some m ∧ t.strand u = some n ∧
      SameBeside m n ∧ (∀ k, k ≠ d → n.reg k = m.reg k) ∧ n.l = m.l ∧ n.x = m.x ∧ n.s = m.s ∧
      ∀ w, w ≠ u → t.strand w = s.strand w

/-! ### Branches -/

/-- The branch words resolve: with room in the outcome queue and outside delay slots, the stream appends the outcome, marks the
word executed and goes on into two delay slots, after which it stands at the target or, if the branch is not taken, at the
third word after the branch (R50, R51). B, CALL and JR are always taken (R348, R356, R386), LOOP while its count is not 0 (R393), a
conditional branch by its condition (R349), BMZ when the top mask is all zero (R354). -/
def Obligations.BranchesResolve : Prop :=
  ∀ (s : State) (u : Nat) (m : Strand), Ready s u m → m.boq.length < m.win.toNat →
    (m.c.delay = 0 →
      (∀ o, exec (.b o) s = .next (s.setStrand u (m.resolve .c true (m.c.pc + BitVec.ofInt 64 (4 * o.toInt))))) ∧
      (∀ o, exec (.call o) s = .next (s.setStrand u
        ((m.setReg 63 (m.c.pc + 12)).resolve .c true (m.c.pc + BitVec.ofInt 64 (4 * o.toInt))))) ∧
      (∀ a, (m.reg a).toNat % 4 = 0 → exec (.jr a) s = .next (s.setStrand u (m.resolve .c true (m.reg a)))) ∧
      (∀ a o, exec (.loop a o) s = .next (s.setStrand u
        (Strand.resolve { m.setReg a (m.reg a - 1) with
          rrb := if m.nrot = 0 then m.rrb else BitVec.ofNat 6 ((m.rrb.toNat + m.nrot - 1) % m.nrot) } .c
          (m.reg a - 1 ≠ 0) (m.c.pc + BitVec.ofInt 64 (4 * o.toInt))))) ∧
      (∀ i o b, CondTaken m.reg i o b →
        exec i s = .next (s.setStrand u (m.resolve .c b (m.c.pc + BitVec.ofInt 64 (4 * o.toInt)))))) ∧
    (m.x.delay = 0 → ∀ o, exec (.bmz o) s = .next (s.setStrand u
      (m.resolve .x (m.mask == 0) (m.x.pc + BitVec.ofInt 64 (4 * o.toInt))))) ∧
    (∀ o, encode (.b o) = [0x0C#8 ++ o] ∧ encode (.call o) = [0x0D#8 ++ o]) ∧
    ∀ (a b : Field) (o : BitVec 12),
      encode (.beq a b o) = [wordBR 0x10 a b o] ∧ encode (.bne a b o) = [wordBR 0x11 a b o] ∧
      encode (.blt a b o) = [wordBR 0x12 a b o] ∧ encode (.bge a b o) = [wordBR 0x13 a b o] ∧
      encode (.bltu a b o) = [wordBR 0x14 a b o] ∧ encode (.bgeu a b o) = [wordBR 0x15 a b o]

/-- What resolving a branch leaves (R50, R51): the outcome joins the queue, the stream has two delay slots and then the target, or
the third word after the branch, and no other stream and no register moves. JR to an address that is not a multiple of 4
raises ALIGN at the JR, with the address (R386); a full outcome queue makes every branch wait, with nothing changed (R50). -/
def Obligations.ResolvedBranchHasTwoDelaySlots : Prop :=
  (∀ (m : Strand) (t k : Stream) (taken : Bool) (target : Word),
      let n := m.resolve t taken target
      let dest := if taken then target else (m.stream t).pc + 12
      (n.stream t).pc = (m.stream t).pc + 4 ∧ (n.stream t).pos = (m.stream t).pos + 1 ∧ (n.stream t).delay = 2 ∧
      (n.stream t).target = dest ∧ (k ≠ t → n.stream k = m.stream k) ∧ n.g = m.g ∧ SameBeside m n ∧
      (∀ e, e ∈ n.boq → e ∈ m.boq ∨ e = ⟨(m.stream t).pos, taken, dest⟩) ∧
      ((∃ j, j ≠ t ∧ (m.stream j).pos ≤ (m.stream t).pos) → ⟨(m.stream t).pos, taken, dest⟩ ∈ n.boq)) ∧
  (∀ (s : State) (u : Nat) (m : Strand), Ready s u m → m.c.delay = 0 →
      (∀ a, (m.reg a).toNat % 4 ≠ 0 → exec (.jr a) s = .next (s.raise u .c cALIGN (m.reg a) 0)) ∧
      (m.win.toNat ≤ m.boq.length → ∀ o, exec (.b o) s = .next s ∧ exec (.call o) s = .next s) ∧
      (m.win.toNat ≤ m.boq.length → ∀ i o b, CondTaken m.reg i o b → exec i s = .next s) ∧
      (m.win.toNat ≤ m.boq.length → ∀ a o, exec (.loop a o) s = .next s ∧
        ((m.reg a).toNat % 4 = 0 → exec (.jr a) s = .next s))) ∧
  ∀ (s : State) (u : Nat) (m : Strand), Ready s u m → m.x.delay = 0 → m.win.toNat ≤ m.boq.length →
    ∀ o, exec (.bmz o) s = .next s

/-! ### Control and status registers -/

/-- The CSR words complete (R370, R75): where the register is allocated and neither it nor the write is privileged beyond the
strand, the old value goes to `d`, and a form that writes stores its value; an LFDATA access advances the lane under AUTO. The
checks come in the order of R75: an unprivileged access from 0x600 on raises PRIV, an unallocated number ILLEGAL, and an
unprivileged write of a CSR marked "privileged write" PRIV. A writing word on a register that has no writable field completes and
changes nothing but its destination (R75). That DMAP0, DMAP30 and DMAP31 count as marked so, like the rest of the
die map, is the model's reading (log 19). -/
def Obligations.CsrWordsComplete : Prop :=
  (∀ (i : Instr) (d : Field) (n : BitVec 12) (w : Bool) (f : Word → Word) (clr old : Word) (s : State) (u : Nat) (m : Strand)
      (r : Rank),
      Ready s u m → s.rank? m.rank = some r → CsrForm m i d n w f clr → csrAllocated n.toNat = true →
      (m.priv = true ∨ (n.toNat < 0x600 ∧ (w = true → csrPrivWrite n.toNat = false))) →
      s.csrRead u m r (m.rotAt .c) n.toNat = some old →
      (w = false → exec i s = .next (s.upd u fun k => ((k.lfAdvance n.toNat).setReg d old).retire .c)) ∧
      (w = true → ∀ s1, s.csrWrite u m r (m.rotAt .c) n.toNat (f old) clr = .inr s1 →
        exec i s = .next (s1.upd u fun k => ((k.lfAdvance n.toNat).setReg d old).retire .c))) ∧
  (∀ (i : Instr) (d : Field) (n : BitVec 12) (f : Word → Word) (clr old : Word) (s : State) (u : Nat) (m : Strand) (r : Rank),
    Ready s u m → s.rank? m.rank = some r → CsrForm m i d n true f clr → csrAllocated n.toNat = true →
    csrWritable n.toNat = false → (m.priv = true ∨ (n.toNat < 0x600 ∧ csrPrivWrite n.toNat = false)) →
    s.csrRead u m r (m.rotAt .c) n.toNat = some old →
    exec i s = .next (s.upd u fun k => (k.setReg d old).retire .c)) ∧
  (∀ (i : Instr) (d : Field) (n : BitVec 12) (w : Bool) (f : Word → Word) (clr : Word) (s : State) (u : Nat) (m : Strand),
      Ready s u m → CsrForm m i d n w f clr →
      (m.priv = false → 0x600 ≤ n.toNat → exec i s = .next (s.raise u .c cPRIV 0 0)) ∧
      ((m.priv = true ∨ n.toNat < 0x600) → csrAllocated n.toNat = false → exec i s = .next (s.raise u .c cILLEGAL 0 0)) ∧
      (m.priv = false → n.toNat < 0x600 → csrAllocated n.toNat = true → w = true → csrPrivWrite n.toNat = true →
        exec i s = .next (s.raise u .c cPRIV 0 0)))

/-- A writable CSR reads afterwards as its rule says of a written value (R48, R79 to R81, R83 to R85, R87 to R90); bits beyond a
register's fields ignore the write (R15). A write of EQACK removes the oldest entries of the error queue, at most all of them, and
one of LFDATA changes the LFSR of the selected lane alone. WIN is the field [10:0], and that the clamp to 16 and 1,024 applies to
that field's value, so that 2,048 sets 16, is the model's reading (log 86). A read-only field of a writable register keeps its
value, as the values after a write say: NROT, CLASS, FSTAT but for its bit 15, COUNT of the error queue. -/
def Obligations.CsrHoldsWhatIsWritten : Prop :=
  ∀ (n : Nat) (f : Word → Word) (s t : State) (u : Nat) (m : Strand) (r : Rank) (rot : Field) (v : Word),
    CsrKeeps m r rot n f → s.strand u = some m → s.rank? m.rank = some r → s.csrWrite u m r rot n v v = .inr t →
    ∃ k q, t.strand u = some k ∧ t.rank? m.rank = some q ∧ k.rank = m.rank ∧ t.csrRead u k q rot n = some (f v) ∧
      t.mem = s.mem ∧ k.g = m.g ∧
      k.errq = (if n = 0x511 then m.errq.drop (min (v.toNat % 2 ^ 7) m.errq.length) else m.errq) ∧
      ∀ l, l < 1024 → (n ≠ 0x205 ∨ l ≠ m.lfLane.toNat) → unit32 k.lanes l = unit32 m.lanes l

/-! ### Words on tokens, masks, full-empty bits and memory -/

/-- The words that change their strand alone complete, and nothing beside the strand changes: NOP, FENCE, TCFG, SIGK, WAITK,
MPUSH, MPUSH.NEW, MINV, MPOP. -/
def Obligations.StrandWordsComplete : Prop :=
  ∀ (i : Instr) (s : State) (u : Nat) (m n : Strand), Ready s u m → StrandWord s u m i n →
    exec i s = .next (s.setStrand u n) ∧ SameFabric s (s.setStrand u n) ∧ n.g = m.g ∧
    ∀ v, v ≠ u → (s.setStrand u n).strand v = s.strand v

/-- The words that wait do so at their place, with nothing else changed (R375, R423, R426, R476), and a wait on a token counter, on
room, on a counter's phase or on full-empty bits ends with the effect of its word (R143, R149, R423, R438, R476). -/
def Obligations.WaitsBeginAndEnd : Prop :=
  (∀ (i : Instr) (s : State) (u : Nat) (m n : Strand), Ready s u m → WaitingWord m i n → exec i s = .next (s.setStrand u n)) ∧
  (∀ (s : State) (loc : Loc) (st t : Stream) (u : Nat) (m : Strand) (k : BitVec 4) (n : BitVec 16),
      (s.waiting loc st .token = some (u, m, .waitk t k n) → n.toNat ≤ (m.token k).toNat →
        exec (.waitkSatisfied loc st) s = .next (s.setStrand u
          ((m.setToken k (BitVec.ofNat 16 ((m.token k).toNat - n.toNat))).retire t))) ∧
      (s.waiting loc st .room = some (u, m, .sigk t k n) → (m.token k).toNat + n.toNat < 2 ^ 16 →
        exec (.sigkRoom loc st) s = .next (s.setStrand u
          ((m.setToken k (BitVec.ofNat 16 ((m.token k).toNat + n.toNat))).retire t)))) ∧
  (∀ (s t : State) (loc : Loc) (st : Stream) (u : Nat) (m : Strand) (c : Client) (i : Instr),
      ReadyAs s u m c → PadWord s u m c i t →
      ((∃ k p x h, i = .arwait k p x h) → s.waiting loc st .arwait = some (u, m, i) → exec (.arwaitDone loc st) s = .next t) ∧
      (((∃ d a sz o, i = .ldfK d a sz o) ∨ (∃ d a sz o, i = .ldfC d a sz o) ∨ (∃ p q, i = .waitfK p q) ∨
          ∃ p q, i = .waitfC p q) →
        s.waiting loc st .fe = some (u, m, i) → exec (.fullEmptyWaitDone loc st) s = .next t)) ∧
  ∀ (s t : State) (loc : Loc) (st : Stream) (u : Nat) (m : Strand) (c : Client) (i : Instr) (n b : Field) (o : BitVec 12),
    ReadyAs s u m c → TileWord s u m c i t → i = .tldk n b o ∨ i = .tstk n b o →
    s.waiting loc st .fe = some (u, m, i) → exec (.fullEmptyWaitDone loc st) s = .next t

/-- The scratchpad words complete: scalar loads and stores, atomics, arrival counters, full-empty bits. -/
def Obligations.ScratchpadWordsComplete : Prop :=
  ∀ (i : Instr) (s t : State) (u : Nat) (m : Strand) (c : Client),
    ReadyAs s u m c → PadWord s u m c i t → exec i s = .next t

/-- The words on device memory complete where the strand's own die translates the address and holds the bytes (R339, R360, R389,
R429); a write stays within what the strand's job may write (R17), which on frames lent to another job is the model's choice
(log 105). Where another die translates it or holds them, the request leaves for that die by one message (R163, R164, R170, R191), and
the word waits for the answer; a store and an AMO without a result that the strand's own die has translated retire at once, their
failures going to the error queue (R242). That one which another die is to translate waits until it is translated, since only
then it is known which of its faults are precise, and that an access to a block which a posted write of its own stream is still to
reach waits for that write, are the model's choices (log 96). -/
def Obligations.DeviceWordsComplete : Prop :=
  ∀ (i : Instr) (s t : State) (u : Nat) (m : Strand) (c : Client),
    ReadyAs s u m c → DeviceWord s u m c i t → exec i s = .next t

/-- A word that stores changes no byte but those of its store, at the address that its own die gives it, on frames lent to another job
the address that keeps the store off them (R17, log 105), and those of the notification of a fault; a load changes no byte but the latter, and no register but its destination. Tables, tiles and banks
stay, and so do the other strands. FSET fills every granule of its range and no other, FCLR empties them, and neither touches a
byte (R143, R377). -/
def Obligations.MemoryWordsFrame : Prop :=
  (∀ (i : Instr) (s t : State) (u : Nat) (m : Strand) (c : Client) (va : Word) (n : Nat),
      MemOk s → ReadyAs s u m c → StoreForm m i va n → exec i s = .next t →
      (∀ x, (∀ addr, storesAt s c va = some addr → x < addr ∨ addr + n ≤ x) → ¬ Notified s x →
        Memory.read t.mem x = Memory.read s.mem x) ∧
      t.fe = s.fe ∧ t.tiles = s.tiles ∧ t.accs = s.accs ∧ t.accOwner = s.accOwner ∧ t.books = s.books ∧
      ∃ k, t.strand u = some k ∧ SameTables m k ∧
        (∀ d, ((∃ a sz o, i = .sts d a sz o) ∨ (∃ a sz o, i = .stg d a sz o) ∨ ∃ a o, i = .stgRel d a o) → k.g = m.g) ∧
        (∀ d, ((∃ a b x w o, i = .amo d a b x w o) ∨ ∃ a b w, i = .cas d a b w) → ∀ j, j ≠ d → k.reg j = m.reg j) ∧
        ∀ v, v ≠ u → t.strand v = s.strand v) ∧
  (∀ (i : Instr) (s t : State) (u : Nat) (m : Strand) (c : Client) (d : Field),
      MemOk s → ReadyAs s u m c → LoadForm i d → exec i s = .next t →
      (∀ x, ¬ Notified s x → Memory.read t.mem x = Memory.read s.mem x) ∧
      t.tiles = s.tiles ∧ t.accs = s.accs ∧ t.accOwner = s.accOwner ∧ t.books = s.books ∧
      ∃ k, t.strand u = some k ∧ SameTables m k ∧ (∀ j, j ≠ d → k.reg j = m.reg j) ∧
        ∀ v, v ≠ u → t.strand v = s.strand v) ∧
  ∀ (s t : State) (u : Nat) (m : Strand) (c : Client) (st : Stream) (p q : Field) (x : Bool) (l : List Nat) (g : Nat),
    ReadyAs s u m c → s.feRange c (m.reg p) (m.reg q) = .inr l → m.streamQuiet st = true →
    (exec (.fset st p q x) s = .next t → t.mem = s.mem ∧ t.full g = (l.contains g || s.full g)) ∧
    (exec (.fclr st p q x) s = .next t → t.mem = s.mem ∧ t.full g = (!l.contains g && s.full g))

/-! ### Sync cells -/

/-- The cell words act (R332, R353, R411): on the strand's own die ACQ and ACQ.SH join the cell's queue and wait, and REL releases;
for a cell at another die each sends its request or release there by one message and waits (R163, R164, R170, R191); BIND sets or
clears its entry, also a HELD one for the cell that it names already. An ACQ that is executed again after a stop of any kind retires
where its request has been granted meanwhile, and otherwise waits on for the request that it has made before, whatever its register
holds by then: that is the model's reading of R209, which says it of a pre-empted strand (log 54). A word whose cell lies in a page that
is still to be swept, or that a running snapshot has still to copy, waits for that (R135, R273). -/
def Obligations.CellWordsComplete : Prop :=
  ∀ (i : Instr) (s t : State) (u : Nat) (m : Strand) (c : Client),
    ReadyAs s u m c → CellWord s u m c i t → exec i s = .next t

/-- An exclusive request for a cell whose word is zero and whose queue is empty is granted at once: the word becomes EXCL, the
hold is recorded, and no request is left; a second request then waits in the queue and changes no byte (R208, R209). Each request's
cell is still where it was found (log 78). -/
def Obligations.FreeCellIsGranted : Prop :=
  ∀ (s : State) (d : DieKey) (addr u v : Nat) (excl : Bool) (c e : CellName),
    MemOk s → s.cellWord addr = 0 → tabAt (s.die d).cells [] addr = [] → s.holdOf d addr u = none → s.cellGone d addr c = false →
    let t := s.queueCell d addr ⟨u, true, c⟩
    t.cellWord addr = 0x8000000000000000 ∧ t.holdOf d addr u = some ⟨addr, u, true, c⟩ ∧
    tabAt (t.die d).cells [] addr = [] ∧
    (t.cellGone d addr e = false → (t.queueCell d addr ⟨v, excl, e⟩).mem = t.mem ∧
      tabAt ((t.queueCell d addr ⟨v, excl, e⟩).die d).cells [] addr = [⟨v, excl, e⟩])

/-! ### System words -/

/-- YIELD, TRIG, GBAR and ENQ complete (R60, R62, R373, R382, R444, R478). That a strand which yields keeps its request for the
matrix array is the model's choice (log 26). -/
def Obligations.SystemWordsComplete : Prop :=
  ∀ (i : Instr) (s t : State) (u : Nat) (m : Strand), Ready s u m → SystemWord s u m i t → exec i s = .next t

/-- The rows that end EXIT, STEP and a parked bank's wait act once their conditions hold (R58, R243, R426, R479), and a GBAR
episode retires the GBAR of every strand of the gang that has not ended (R62, R382). A strand that ends leaves its bank, its
accumulator banks and the matrix array, and no strand else is removed (R58). -/
def Obligations.SystemWaitsEnd : Prop :=
  (∀ (i : Instr) (s t : State) (loc : Loc) (u : Nat) (m : Strand),
    s.onBank loc.toNat = some (u, m) → s.strand u = some m → WaitEnds s loc u m i t → exec i s = .next t) ∧
  (∀ (s : State) (gid : Nat) (g : Gang), s.gang? gid = some g → (∀ u, u ∈ g.live → atBarrier s u) →
    exec (.gbarEpisodeComplete gid) s = .next (g.live.foldl (fun acc u => acc.upd u fun m => m.retire .c) s)) ∧
  ∀ (s : State) (u : Nat) (m : Strand), s.strand u = some m →
    (s.endStrand u).strand u = none ∧ (∀ v, v ≠ u → (s.strand v).isSome = ((s.endStrand u).strand v).isSome) ∧
    (∀ e, e ∈ (s.endStrand u).accOwner → e.2.uid ≠ u) ∧ (∀ e, e ∈ (s.endStrand u).array → e.2 ≠ u) ∧
    (s.endStrand u).tiles = s.tiles ∧ (s.endStrand u).accs = s.accs

/-- A boundary with no migration and no snapshot latched, and no sweep due: GSTEP and the strand's step view advance by one, a
latched budget class takes effect, and the STEP retires (R36, R425, R426). That the reclaims begun on the rank's pages are
waited for before GSTEP advances is the model's choice (log 85). -/
def Obligations.BoundaryAdvancesTheStep : Prop :=
  ∀ (s : State) (loc : Loc) (u : Nat) (m : Strand) (r : Rank),
    s.onBank loc.toNat = some (u, m) → s.strand u = some m → s.rank? m.rank = some r → m.c.wait = .step →
    m.canIssue = true → s.quiet u m .c = true → m.cmds = [] → r.stepping = none → s.reclaimOpen r = false →
    r.migrate = none → r.snapReq = none → (r.gstep + 1).toNat % 2 ^ 22 ≠ 0 →
    ∃ t, exec (.stepBoundary loc) s = .next t ∧
      t.rank? m.rank = some { r with gstep := r.gstep + 1, cls := r.pend.getD r.cls, pend := none, due := none } ∧
      t.strand u = some { m.retire .c with stepv := m.stepv + 1 } ∧ t.mem = s.mem

/-- TRAP and SYS retire and stop their strand at the next word (R248, R432): with nothing in flight, FSTAT holds the cause and
FV, FPC_C the address after the word, FPROG kind 6 and the code. -/
def Obligations.TrapsStopAtTheNextWord : Prop :=
  ∀ (s : State) (u : Nat) (m : Strand) (code : BitVec 24) (i : Instr) (cause : BitVec 8),
    Ready s u m → m.c.delay = 0 → m.busy = false → ((i = .trap code ∧ cause = 0x50) ∨ (i = .sys code ∧ cause = 0x51)) →
    ∃ t n, exec i s = .next t ∧ t.strand u = some n ∧ n.state = .faulted ∧
      n.frame[0] = wd (cause.toNat + 0x8000) ∧ n.frame[1] = 0 ∧ n.frame[2] = m.c.pc + 4 ∧ n.frame[3] = m.l.pc ∧
      n.frame[4] = m.x.pc ∧ n.frame[5] = m.s.pc ∧ n.frame[6] = wd (6 * 2 ^ 60 + code.toNat) ∧ n.frame[8] = 0 ∧
      n.c.pc = m.c.pc + 4 ∧ n.c.pos = m.c.pos + 1 ∧ n.g = m.g

/-! ### Pages and leases -/

/-- The page words of a privileged strand complete, end at once with their status, or hold their page (R177, R179, R183); LEND
sends its request and waits for the status, RECLAIM writes its status (R187, R188, R391, R409). When a procedure takes its page,
when it waits for a page of its leaf to be swept, and the status that it gives where no rule names one, are the model's
choices (log 38, log 43). LEND reads its descriptor after its own strand's stores (R201), and RECLAIM acts while no request to the
named die is held after a change of route (R257, log 48). -/
def Obligations.PageAndLeaseWordsComplete : Prop :=
  (∀ (i : Instr) (s t : State) (u : Nat) (m : Strand) (c : Client),
      ReadyAs s u m c → m.priv = true → PageWord s u m c i t → exec i s = .next t) ∧
  (∀ (i : Instr) (s t : State) (u : Nat) (m : Strand) (c : Client),
      ReadyAs s u m c → m.priv = true → LeaseWord s u m c i t → exec i s = .next t)

/-- The page engines' rows end their work (R173, R179, R193 to R195). The lease messages act as their rules say (R187, R190, R193,
R197), and a deadline that has run down fences the region and tells the borrower (R197). What the page rows change and leave is
in `EngineRowsFrame`. The model's choices: when a procedure ends and with which status (log 38), PEER of a moved leaf (log 39), no
frame returned for a page of a polder (log 41), a granule that is no live page any more (log 73), status 5 where both entries are
gone (log 83), entry numbers 0 beside a status other than 0 and a malformed RMAP[3:0] (log 93), how a message names its lease
(log 97), that the lender's entry keeps RMAP and RMT of the descriptor and that an entry of a failed lease is FREE and reads as after
reset (log 109), and requests that count while a page is held (log 77). A hardware migration moves its page to the new home, whichever die
that is and wherever the page was, also on a polder whatever the state of its lease (log 92), or leaves it where no such page is left
or a die is not reached (log 107). An engine goes on while none of its die's requests is held after a change of route (R257, log 48). -/
def Obligations.PageEnginesAndLeaseMessagesAct : Prop :=
  (∀ (i : Instr) (s t : State), PageRow s i t → exec i s = .next t) ∧
  ((∀ (i : Instr) (s t : State) (q : Msg), Due s q → LeaseRow s q i t → exec i s = .next t) ∧
    ∀ (s : State) (die : DieKey) (entry : BitVec 4) (p : Polder),
      tabGet (s.die die).polders entry.toNat = some p → p.borrower = false → p.state = 3 → p.dleft = 0 →
      exec (.reclaimDeadline die entry) s = .next
        (let s1 := (s.updPolder die entry.toNat fun p => { p with state := 5 }).leaseNote die entry.toNat p 5
         s1.send die (dieOfPeer p.borrow) (64 * s1.ids) (.fence p.peer)))

/-- After an invalidation no entry of the TLB translates the offset; after one of a space, none translates any offset of it
(R177). -/
def Obligations.InvalidationRemovesEntries : Prop :=
  ∀ (s : State) (job : BitVec 32) (p : Spot) (d : DieKey) (key off : Nat),
    ((s.tlbInval job p).die p.die).tlbHit job p.key p.off = none ∧ ((s.invalSpace d job key).die d).tlbHit job key off = none

/-! ### Tile memory, index walks, asynchronous commands -/

/-- The words between memory and tiles complete (R362, R437, R438, R441, R443), and so do the index walks whose checks pass and
that meet no fault and no wait (R381, R384, R415, R419, R453, R454). An index within the table names its row; of one beyond
it, policy 0 raises INDEX_RANGE at the entry, 1 has zeros for the row, 2 skips the entry, 3 takes the last row (R246, R381).
GRED completes for a destination in domain 31 and for any other one (R384); that the far end checked of the latter is the last byte
that it writes, `dst + len - 1`, is the model's reading (log 102). -/
def Obligations.TileAndIndexWordsComplete : Prop :=
  (∀ (i : Instr) (s t : State) (u : Nat) (m : Strand) (c : Client), ReadyAs s u m c →
      (TileWord s u m c i t → exec i s = .next t) ∧ (WalkWordRuns s u m c i t → exec i s = .next t)) ∧
  (∀ (c : Client) (list : Word) (ntab x e : Nat) (policy : BitVec 2) (body : State → Nat → Option Nat → State × PartEnd)
      (s s1 : State), s.readVa c (list + wd (4 * e)) 4 = (s1, .ok x) →
      let run := fun row => match body s1 e row with
        | (s2, .done) => (s2, e + 1, PartEnd.done)
        | (s2, r) => (s2, e, r)
      indexLoop c list ntab policy body 1 e s =
        if x < ntab then run (some x)
        else if policy = 0 then (s1, e, .fault cINDEX_RANGE (list + wd (4 * e)))
        else if policy = 1 then run none
        else if policy = 2 then (s1, e + 1, .done)
        else run (some (ntab - 1)))

/-- TST, TSTK, TMOV and the index walks GATHER, SCAT, SCATA and UPD change no byte of memory but those of the pieces that they
store to, which are computed as the words compute them, and those of the notification of an event; tiles, banks, other strands
and the registers stay (R215, R381, R415, R419, R437, R438, R443, R453). -/
def Obligations.TileAndIndexStoresFrame : Prop :=
  ∀ (i : Instr) (s t : State) (u : Nat) (m : Strand) (c : Client) (l : List (Nat × Nat)),
    MemOk s → ReadyAs s u m c → TileStore s m c i l ∨ WalkStore s u m c i l → exec i s = .next t →
    (∀ x, ¬ Written l x → ¬ Notified s x → Memory.read t.mem x = Memory.read s.mem x) ∧
    StoreFrame s t u m ∧ t.accOwner = s.accOwner

/-- ADRAIN, the rows of a running AST and a chunk that arrives change no byte of memory but those of the rows and the trailer, or
of the chunk's destination and its counter, and those of the notification of an event; a chunk that cannot be made yet changes
none. Tiles, banks' contents, other strands and the registers stay (R148, R215, R335, R346, R365). -/
def Obligations.EngineStoresFrame : Prop :=
  (∀ (p q : Field) (s t : State) (u : Nat) (m : Strand) (c : Client) (loc : Nat) (g : Progress),
      MemOk s → ReadyAs s u m c → m.place = some loc → exec (.adrain p q) s = .next t →
      g = (m.progAt m.x.pos).getD ⟨m.x.pos, 0, 0, 0, false, false⟩ →
      (∀ x, ¬ Written (drainSpots u c (locCore loc) (m.reg p) (m.reg q) (Mode.ofCode (drainRnd m (m.reg q)).toNat) m.ieee
          (fld (m.reg q) 12 6 - g.count) ⟨g.count, g.ovf.toNat, g.iovf⟩ s) x → ¬ Notified s x →
        Memory.read t.mem x = Memory.read s.mem x) ∧
      StoreFrame s t u m ∧ t.accOwner = s.accOwner) ∧
  (∀ (s t : State) (loc : Loc) (u : Nat) (m : Strand) (c : Client) (a : Ast),
      MemOk s → s.onBank loc.toNat = some (u, m) → s.strand u = some m → s.clientOf m = some c →
      m.asts.find? (fun a => !a.stopped) = some a → exec (.astFinish loc) s = .next t →
      (∀ x, ¬ Written (drainSpots u { c with dmap := a.dmap } (locCore loc.toNat) a.dst a.desc (Mode.ofCode a.rnd.toNat) a.ieee
          (fld a.desc 12 6 - a.row) ⟨a.row, a.ovf.toNat, a.iovf⟩ s) x → ¬ Notified s x →
        Memory.read t.mem x = Memory.read s.mem x) ∧
      StoreFrame s t u m) ∧
  ∀ (s s1 t : State) (loc : Loc) (slot : BitVec 6) (ahead : BitVec 4) (u : Nat) (m : Strand) (c : Client) (k : Cmd) (r : ChunkRes),
    MemOk s → s.runningCmd loc slot = some (u, m, c, k) → s.strand u = some m → k.chunks ≠ 0 →
    s.chunk c k (k.next + ahead.toNat) = (s1, r) → exec (.chunkArrive loc slot ahead) s = .next t →
    (∀ x, (∀ l, r = .ok l → (¬ Written (l.map fun p => (p.1.addr, p.1.bytes)) x ∧
        ∀ a, s1.scratch c k.counter = .ok a → ¬ Written [(a, 16)] x)) → ¬ Notified s x →
      Memory.read t.mem x = Memory.read s.mem x) ∧
    StoreFrame s t u m

/-- CPY and CPYT are issued (R358, R365, R367), and so are the collectives of a member that finds itself in its communicator: the
command takes a slot and counts into PENDING, the sequence number advances, and the endpoint is told to begin (R260, R357,
R358). Of a running command a chunk arrives, the next chunk fails, or the command moves to an idle sibling, as a GRED does (R148,
R227, R241, R264); a failure waits while the page of the counter's save frame is held (R183). The model's choices: which slot is taken (log 64), that a message tells the endpoint (log 55), which of the
chunks in flight fails and what the others leave (log 29), that a chunk or a move may come at any turn, what is checked where
the member's position is not known (log 65), and the slot number that stands for a GRED (log 79). -/
def Obligations.AsyncCommandsAct : Prop :=
  ((∀ (i : Instr) (s t : State) (u : Nat) (m : Strand) (c : Client),
      ReadyAs s u m c → CopyWord s u m c i t → exec i s = .next t) ∧
    ∀ (i : Instr) (op : CmdOp) (p q r : Field) (s s1 s2 : State) (u : Nat) (m : Strand) (c : Client) (rk : Rank) (pos : Nat)
      (l : List Nat),
      ReadyAs s u m c → CollectiveForm i op p q r → s.rank? m.rank = some rk →
      s.roster rk m.rank (fld (m.reg r) 5 0) = (s1, .ok pos l) →
      let comm := fld (m.reg r) 5 0
      let k := collCommand m rk op p q r pos
      let e := rk.comm comm
      collDescBad op e (m.reg r) (m.reg (r + 1)) = false → s1.counterCheck m.gang k.counter = none →
      k.dst.toNat % 16 = 0 → (op ≠ .cbc ∨ pos = fld (m.reg r) 25 10 → k.src.toNat % 16 = 0) →
      (∀ h, k.head = some h → (collRegions k h).2 = false ∧ s1.endChecks c (collRegions k h).1 = none) →
      Issued s1 u m .s c k s2 →
      ∃ h, k.head = some h ∧ exec i s = .next
        ((((s2.updRank m.rank fun v => { v with comms := tabPut v.comms comm { v.comm comm with seq := e.seq + 1 } }).upd u
          fun n => { n with colls := n.colls ++ [⟨comm, e.seq, l⟩] }).send rk.home rk.home (64 * s2.ids)
            (.coll { from_ := m.rank, dest := m.rank, head := h, phase := .start, words := [] })).upd u fun n => n.retire .s)) ∧
  (∀ (i : Instr) (s t : State) (loc : Loc) (slot : BitVec 6) (u : Nat) (m : Strand) (c : Client) (k : Cmd),
      s.runningCmd loc slot = some (u, m, c, k) →
      CommandRow s loc slot u m c k i t → exec i s = .next t) ∧
  ∀ (s : State) (loc : Loc) (slot : BitVec 6) (core : BitVec 3) (u : Nat) (m : Strand) (l : List Word),
    GredMoves s loc slot core u m l → exec (.commandRelocate loc slot core) s =
      .next (s.setStrand u { m with taker := some (coreOf (locCluster loc.toNat) core.toNat) })

/-! ### Vector words -/

/-- The element words that round: each enabled element of the destination becomes the exact value rounded once, each other one
keeps its bits, and OVF of the destination counts the results that saturated (R109, R115, R448, R450, R456, R464). -/
def Obligations.FloatWordsComplete : Prop :=
  ∀ (i : Instr) (d a b : Field) (code : BitVec 3) (f : Mode → Val → Val → Val → Val) (s : State) (u : Nat) (m : Strand)
    (td ta tb : Tile),
    Ready s u m → FloatWord i d a b code f → m.vTile d [0x0, 0x1, 0x2] = .ok td → m.vLike td a = .ok ta →
    m.vLike td b = .ok tb →
    let w := cfgWidth td.fmt
    let mode := m.mode code
    let result := fun k => (fmtOf td.fmt).rnd mode m.ieee (lfsrAt m mode w k)
      (f mode (decElem td.fmt (elemBits (s.image ta) w k)) (decElem td.fmt (elemBits (s.image tb) w k))
        (decElem td.fmt (elemBits (s.image td) w k)))
    ∃ t n, exec i s = .next t ∧ VectorFrame s t u m n td ∧ (mode ≠ .rsto → n.lanes = m.lanes) ∧
      (∀ k, k < td.count → (k + 1) * w ≤ 32768 → element (t.image td) w k =
        if m.mask.getLsbD (laneOf w k) then BitVec.ofNat w (result k).bits else element (s.image td) w k) ∧
      (td.slot < 64 → fld (vget n.tstat 0 td.slot) 15 0 = min 0xFFFF (fld (vget m.tstat 0 td.slot) 15 0 +
        (List.range td.count).countP fun k => m.mask.getLsbD (laneOf w k) && (result k).ovf))

/-- The element words that do not round (R448, R450, R455, R465, R467, R474). OVF of the destination counts the enabled elements
that a saturating word clamps, and VABS and VNEG of the least integer. -/
def Obligations.BitsWordsComplete : Prop :=
  ∀ (i : Instr) (d a b : Field) (takes : Nat → Bool) (f : (w : Nat) → Nat → Nat → Nat → BitVec w) (s : State) (u : Nat)
    (m : Strand) (td ta tb : Tile),
    Ready s u m → BitsWord i d a b takes f → m.vTile d vecFmts = .ok td → takes td.fmt = true → m.vLike td a = .ok ta →
    m.vLike td b = .ok tb →
    let w := cfgWidth td.fmt
    ∃ t n, exec i s = .next t ∧ VectorFrame s t u m n td ∧ n.lanes = m.lanes ∧
      (∀ k, k < td.count → (k + 1) * w ≤ 32768 → element (t.image td) w k =
        if m.mask.getLsbD (laneOf w k) then f w td.fmt (elemBits (s.image ta) w k) (elemBits (s.image tb) w k)
        else element (s.image td) w k) ∧
      (td.slot < 64 → fld (vget n.tstat 0 td.slot) 15 0 = min 0xFFFF (fld (vget m.tstat 0 td.slot) 15 0 +
        (List.range td.count).countP fun k => m.mask.getLsbD (laneOf w k) &&
          bitsOvf i w td.fmt (elemBits (s.image ta) w k) (elemBits (s.image tb) w k)))

/-- The lane words: each lane that they write has its rule's value, every other lane keeps its bits (R449, R450, R457, R458,
R466, R468, R470, R471, R473). -/
def Obligations.LaneWordsComplete : Prop :=
  ∀ (i : Instr) (d : Field) (on : Nat → Bool) (f : Nat → BitVec 32) (s : State) (u : Nat) (m : Strand) (td : Tile),
    Ready s u m → LaneWord s m i d on f → m.tile .x d = some td →
    ∃ t n, exec i s = .next t ∧ VectorFrame s t u m n td ∧ n.lanes = m.lanes ∧ n.tstat = m.tstat ∧
      ∀ l, l < 1024 → unit32 (t.image td) l = if on l then f l else unit32 (s.image td) l

/-- The reductions and scans complete: a lane that the top mask enables receives the value of its rule, and every other lane keeps
its bits. For VREDR and VREDC that value is the pairwise tree over the enabled lanes of the lane's row or column (R469), for VSCANR
and VSCANC the serial scan of it in lane order, up to the lane or, under `.EX`, up to the one before it (R472). -/
def Obligations.GroupWordsComplete : Prop :=
  ∀ (i : Instr) (d a : Field) (f : Nat → BitVec 32768 → Nat → BitVec 32) (s : State) (u : Nat) (m : Strand) (td ta : Tile),
    Ready s u m → GroupWord m i d a f → m.tile .x d = some td → m.vTile a [0x0, 0xC] = .ok ta →
    ∃ t n, exec i s = .next t ∧ VectorFrame s t u m n td ∧ n.lanes = m.lanes ∧
      ∀ l, l < 1024 → unit32 (t.image td) l =
        if m.mask.getLsbD l then f ta.fmt (s.image ta) l else unit32 (s.image td) l

/-- Comparison, the decay words and the CORDIC functions of one result complete (R459, R460, R462, R463); VCOR SINCOS writes the
pair of sines and cosines (R460), and VCVT converts every enabled element through its scales (R461). -/
def Obligations.ComparisonDecayCordicAndVcvtComplete : Prop :=
  (∀ (i : Instr) (s : State) (u : Nat) (m : Strand) (td : Tile) (f : Nat → Elem),
      Ready s u m → OtherElements s m i td f →
      let w := cfgWidth td.fmt
      ∃ t n, exec i s = .next t ∧ VectorFrame s t u m n td ∧ n.lanes = m.lanes ∧
        ∀ k, k < td.count → (k + 1) * w ≤ 32768 → element (t.image td) w k =
          if m.mask.getLsbD (laneOf w k) then BitVec.ofNat w (f k).r.bits else element (s.image td) w k) ∧
  ((∀ (s : State) (u : Nat) (m : Strand) (d a : Field) (i : BitVec 5) (td te ta : Tile),
      Ready s u m → m.vTile d fltFmts = .ok td → m.vLike td (d + 1) = .ok te → m.vLike td a = .ok ta →
      let w := cfgWidth td.fmt
      let pair := fun k => corSincos (i.toNat + 8) (decElem td.fmt (elemBits (s.image ta) w k))
      let bits := fun v => BitVec.ofNat w ((fmtOf td.fmt).rnd .rne m.ieee 0 v).bits
      ∃ t n, exec (.vcor d a i 0) s = .next t ∧ t.strand u = some n ∧ t.mem = s.mem ∧ n.g = m.g ∧ n.x.pos = m.x.pos + 1 ∧
        ∀ k, k < td.count → (k + 1) * w ≤ 32768 →
          element (t.image td) w k = (if m.mask.getLsbD (laneOf w k) then bits (pair k).1 else element (s.image td) w k) ∧
          element (t.image te) w k = (if m.mask.getLsbD (laneOf w k) then bits (pair k).2 else element (s.image te) w k)) ∧
    ∀ (s : State) (u : Nat) (m : Strand) (c : Client) (loc : Nat) (d a : Field) (code : BitVec 3) (td ta : Tile) (pd pa : Nat),
      ReadyAs s u m c → m.place = some loc → Converts s m c d a td ta pd pa →
      let w := cfgWidth td.fmt
      ∃ t n, exec (.vcvt d a code) s = .next t ∧ t.strand u = some n ∧ t.mem = s.mem ∧ n.g = m.g ∧ n.x.pos = m.x.pos + 1 ∧
        (∀ j, j ≠ td.key → tabAt t.tiles 0 j = tabAt s.tiles 0 j) ∧
        (m.mode code ≠ .rsto → ∀ k, k < td.count → (k + 1) * w ≤ 32768 → element (t.image td) w k =
          if m.mask.getLsbD (laneOf w k) then BitVec.ofNat w (cvtElem (fmtOf td.fmt) (m.mode code) m.ieee 0
            (if td.scaled then some (td.scaleOf pd k) else none)
            (ta.dec (tabAt s.books 0 (locCore loc)) (s.image ta) pa k)).r.bits
          else element (s.image td) w k))

/-! ### The matrix unit -/

/-- The words on leases, banks and drains complete (R57, R335, R346, R347, R401), and the rows of the array and of a running AST
act (R57, R247, R346). The model's choices: when the rows of an AST are written (log 16), whom an array goes to first (log 8),
when the cycles of a lease run down (log 70), and that the lease is NONE while MLEASE waits for the array (log 88). -/
def Obligations.MatrixWordsComplete : Prop :=
  (∀ (i : Instr) (s t : State) (u : Nat) (m : Strand) (c : Client) (loc : Nat),
    ReadyAs s u m c → m.place = some loc → MatrixWord s u m c loc i t → exec i s = .next t) ∧
  ∀ (i : Instr) (s t : State), MatrixRow s i t → exec i s = .next t

/-- MMA adds to each accumulator of its rows and columns the exact sum of products, rounded once, and changes no other entry
(R116, R399); AADD adds the tile's elements (R328). Each uses one command of the lease. -/
def Obligations.MatrixCommandsAccumulate : Prop :=
  (∀ (s : State) (u : Nat) (m : Strand) (c : Client) (loc : Nat) (d a b : Field) (ta tb : Tile) (x y : Scaled) (k cy : Nat),
    ReadyAs s u m c → m.place = some loc → m.mTile a = .ok ta → m.mTile b = .ok tb → ta.cols = tb.cols →
    s.planes c [ta, tb] = .inr [x, y] → MatrixMayRun s u m (locCore loc) d.toNat ta.rows k cy →
    ∃ t n, exec (.mma d a b) s = .next t ∧ BankFrame s t u m n ∧ n.lease = .held (k - 1) cy ∧
      ∀ j r e, r < 16 → e < 64 → bankEntry (t.bank (locCore loc) (d.toNat + j)) r e =
        if 16 * j + r < ta.rows ∧ e < tb.rows then
          rndAx (matrixSum (fAX64.decFloat (bankEntry (s.bank (locCore loc) (d.toNat + j)) r e))
            (((s.rowVals (locCore loc) x (16 * j + r)).zip (s.rowVals (locCore loc) y e)).map fun p => p.1.mul p.2)) % 2 ^ 64
        else bankEntry (s.bank (locCore loc) (d.toNat + j)) r e) ∧
  ∀ (s : State) (u : Nat) (m : Strand) (c : Client) (loc : Nat) (d a : Field) (ta : Tile) (x : Scaled) (k cy : Nat),
    ReadyAs s u m c → m.place = some loc → m.vTile a aaddFmts = .ok ta → ta.cols ≤ 64 →
    s.planes c [ta] = .inr [x] → MatrixMayRun s u m (locCore loc) d.toNat ta.rows k cy →
    ∃ t n, exec (.aadd d a) s = .next t ∧ BankFrame s t u m n ∧ n.lease = .held (k - 1) cy ∧
      ∀ j r e, r < 16 → e < 64 → bankEntry (t.bank (locCore loc) (d.toNat + j)) r e =
        if 16 * j + r < ta.rows ∧ e < ta.cols then
          rndAx (Val.add false (fAX64.decFloat (bankEntry (s.bank (locCore loc) (d.toNat + j)) r e))
            ((s.rowVals (locCore loc) x (16 * j + r)).getD e .nan)) % 2 ^ 64
        else bankEntry (s.bank (locCore loc) (d.toNat + j)) r e

/-- AALLOC owns its banks, with FREE ones zeroed, and AFREE gives them up, DRAINING where an earlier AST, issued or not yet, reads
them; no other bank's owner changes (R153, R330, R337). TUNPK converts the rows of banks into a tile, every element rounded once (R446). -/
def Obligations.BankWordsComplete : Prop :=
  (∀ (s : State) (u : Nat) (m : Strand) (loc : Nat) (d a : Field),
    Ready s u m → m.place = some loc → d.toNat + a.toNat < 64 →
    (∀ j, d.toNat ≤ j → j ≤ d.toNat + a.toNat → ∀ o, tabGet s.accOwner (unitKey (locCore loc) j) = some o → o.uid = u) →
    ∃ t n, exec (.aalloc d a) s = .next t ∧ BankFrame s t u m n ∧ ∀ j,
      (d.toNat ≤ j ∧ j ≤ d.toNat + a.toNat →
        tabGet t.accOwner (unitKey (locCore loc) j) = some ⟨u, false⟩ ∧
        t.bank (locCore loc) j =
          if (tabGet s.accOwner (unitKey (locCore loc) j)).isSome then s.bank (locCore loc) j else 0) ∧
      (¬ (d.toNat ≤ j ∧ j ≤ d.toNat + a.toNat) →
        tabGet t.accOwner (unitKey (locCore loc) j) = tabGet s.accOwner (unitKey (locCore loc) j) ∧
        t.bank (locCore loc) j = s.bank (locCore loc) j)) ∧
  (∀ (s : State) (u : Nat) (m : Strand) (loc : Nat) (d a : Field),
    Ready s u m → m.place = some loc → d.toNat + a.toNat < 64 →
    s.banksCheck u (locCore loc) d.toNat (a.toNat + 1) = none →
    ∃ t n, exec (.afree d a) s = .next t ∧ BankFrame s t u m n ∧ t.accs = s.accs ∧ ∀ j,
      tabGet t.accOwner (unitKey (locCore loc) j) =
        if d.toNat ≤ j ∧ j ≤ d.toNat + a.toNat then
          if m.asts.any (fun x => x.pos < m.x.pos && (astBanks x.desc).contains j) ||
            (m.waitingAsts m.x.pos).any (fun e => (astBanks (m.reg e.2)).contains j) then some ⟨u, true⟩ else none
        else tabGet s.accOwner (unitKey (locCore loc) j)) ∧
  ∀ (s : State) (u : Nat) (m : Strand) (loc : Nat) (d a : Field) (code : BitVec 3) (td : Tile),
    Ready s u m → m.place = some loc → m.vTile d drainFmts = .ok td → td.scaled = false → td.cols ≤ 64 →
    s.rowBanks u (locCore loc) a.toNat td.rows = none →
    let w := cfgWidth td.fmt
    let mode := m.mode code
    ∃ t n, exec (.tunpk d a code) s = .next t ∧ VectorFrame s t u m n td ∧
      ∀ k, k < td.count → (k + 1) * w ≤ 32768 → element (t.image td) w k =
        BitVec.ofNat w ((fmtOf td.fmt).rnd mode m.ieee (lfsrAt m mode w k) (fAX64.decFloat
          (bankEntry (s.bank (locCore loc) (a.toNat + k / td.cols / 16)) (k / td.cols % 16) (k % td.cols)))).bits

/-! ### Messages, scheduling, engines -/

/-- The rows of a message that has reached its die and whose turn has come act as their rules say: requests, responses, posts,
polder accesses, collectives, aborts, endpoint updates (R90, R163, R174, R187, R191, R242, R257, R260, R264, R265, R269), and
a cell's request, release and grant (R209, R332). The model's choices: the message that starts a collective and the order of its
phases (log 55), one message a hop for CAG and CBC (log 31), when CO of a moved rank's own table follows (log 11), that a request
whose bytes have come to somebody else on its way is translated anew (log 78), that a store or an AMO without a result which waits is
let go once it has been translated for another die (log 96), that a grant is kept for a strand which a stop other than a pre-emption
has ended the wait of (log 54), that a write stays off frames lent to another (log 105), VALUE of the completion of a LEND (log 112), and LOC of the event of a strand
that is switched out (log 98). -/
def Obligations.MessagesAct : Prop :=
  (∀ (i : Instr) (s t : State) (q : Msg), Due s q → MessageRow s q i t → exec i s = .next t) ∧
  (∀ (i : Instr) (s t : State) (q : Msg), Due s q → CellRow s q i t → exec i s = .next t)

/-- A flit is delivered, takes its next link, or is dropped and its request refused (R255); a request that has had no answer
for 2^20 cycles fails with PEER_UNREACHABLE, a younger one does not, and one without a result leaves an error entry, its word going
on if it has waited for the translation (R90, R242, R257, log 96). A request to a destination whose route entry has changed is held while earlier ones are unanswered (R257, log 48). The
model's choices: the message of a request that has timed out is dropped (log 47), and the entry's PEER is the die that was not
reached (log 18). -/
def Obligations.FlitsMoveAndRequestsTimeOut : Prop :=
  ∀ (s : State) (q : Msg), s.msg? s.subject = some q →
    (q.arrived = false → s.alive q.at_ = true → s.routeHeld q = true → exec .flitForward s = .next s) ∧
    (q.arrived = false → s.alive q.at_ = true → s.routeHeld q = false → q.hops ≠ lostHops →
      (s.hop q.at_ q.src q.dst q.route q.hops = .deliver → exec .flitForward s = .next (s.setMsg { q with arrived := true })) ∧
      (∀ p, s.hop q.at_ q.src q.dst q.route q.hops = .send (some p) →
        exec .flitForward s = .next (s.setMsg { q with at_ := p, hops := q.hops + 1 })) ∧
      (6 ≤ q.hops → (q.at_ ≠ pkgOf q.dst ∨ bit (s.route q.at_ (pkgOf q.dst)) 63 = false) → q.body.asks = true →
        exec .flitForward s = .next (s.failMsg q))) ∧
    (∀ a, q.body = .access a → 2 ^ 20 ≤ q.age → a.op.posts = false ∨ (a.waits = true ∧ a.phys ≠ none) →
      exec .requestTimeout s = .next ((s.dropMsg q.id).send q.src q.src (64 * s.ids)
        (.refuse a.uid a.stream cPEER_UNREACHABLE a.va q.id))) ∧
    (∀ a t, q.body = .access a → 2 ^ 20 ≤ q.age → a.op.posts = true → t = (s.dropMsg q.id).send q.src q.src (64 * s.ids)
        (.post a.uid ⟨wordOf a.va, peerOf q.dst, cPEER_UNREACHABLE⟩) →
      (a.waits = false → exec .requestTimeout s = .next t) ∧
      (a.waits = true → a.phys = none → exec .requestTimeout s =
        .next (t.send q.src q.src (64 * t.ids) (.goOn a.uid a.stream a.va q.id)))) ∧
    (q.age < 2 ^ 20 → exec .requestTimeout s = .next s)

/-- The rows of the scheduler act: activation in order of the queues, dispatch, resumption, switch-out, the exchange of a
partition, and the binding of a segment (R157, R219, R221, R225, R229 to R231). The model's choices: when a partition gets a
cluster (log 50), when a round of a nest is placed (log 51), that a gang on the resume list which does not fit holds back neither
later nests nor fresh dispatches (log 110), how tiles and banks come from another cluster's shadow store (log 115), and that a binding
takes the lowest-numbered FREE segment (log 84). -/
def Obligations.SchedulerRowsAct : Prop :=
  ∀ (i : Instr) (s t : State), ScheduleRow s i t → exec i s = .next t

/-- A dispatched gang's strands start in the state of R44: every stream at the nest's entry point, the indices in `g1` to `g4`,
the ordinal in `g5`, zero in every other register, no tokens, one full mask, lane LFSRs l + 1, the window of the record, WIN
256, no outcome, no lease. No accumulator bank changes its owner, so that a strand whose number is new owns none. -/
def Obligations.DispatchedStrandsAreCold : Prop :=
  ∀ (s : State) (r : Rank) (nid : Nat) (n : Nest) (lp o cluster slot k loc base : Nat) (seats : List (Nat × Nat)),
    seats[k]? = some (loc, base) →
    ∃ m, (s.dispatch r nid n lp o cluster slot seats).strand (s.ids + 1 + k) = some m ∧
      (∀ t, (m.stream t).pc = n.entry ∧ (m.stream t).pos = 0 ∧ (m.stream t).delay = 0) ∧
      m.reg 1 = wd (indexOf n.words o 0) ∧ m.reg 2 = wd (indexOf n.words o 1) ∧ m.reg 3 = wd (indexOf n.words o 2) ∧
      m.reg 4 = wd (indexOf n.words o 3) ∧ m.reg 5 = wd o ∧ (∀ j : Field, 6 ≤ j.toNat → m.reg j = 0) ∧
      (∀ j, m.token j = 0) ∧ m.masks = [BitVec.allOnes 1024] ∧
      (∀ l, l < 1024 → unit32 m.lanes l = BitVec.ofNat 32 (l + 1)) ∧
      m.base = base ∧ m.size = recTiles n.words ∧ m.nrot = fld n.words[1] 27 21 ∧ m.rrb = 0 ∧ m.win = 256 ∧ m.boq = [] ∧
      m.lease = .none ∧ m.member = k ∧ m.place = some loc ∧ m.priv = n.priv ∧ m.state = .run ∧ m.canIssue = true ∧
      (s.dispatch r nid n lp o cluster slot seats).accOwner = s.accOwner ∧
      ((∀ e ∈ s.accOwner, e.2.uid ≠ s.ids + 1 + k) →
        (s.dispatch r nid n lp o cluster slot seats).ownedMask (s.ids + 1 + k) false = 0)

/-- What the rows of the engines change and what they leave. The end of a page procedure writes its status to the word's register
and retires the word, no other register, strand, rank, gang, tile, bank or segment changes, a status other than 0 comes with no
byte changed, a split writes the slots of its leaves and their lower tables alone, a collapse the leaves alone, and a migration
puts the page's bytes into the frames that it takes and changes no other byte but the leaf (R178 to R182). A hardware migration
changes no strand, rank or tile, and no byte but those of the page's new frame and of its leaf (R173). A page that the reclaim has
moved has its bytes in the new frame and counts no more among the pages left (R193). A switch-out leaves the other gangs' strands
as they are, of its own strands keeps the registers, the masks and the streams' places, and writes the context images that its
units and frames go to and no other byte (R91, R92, R229, R233); a save or restore of a segment that it or its partition has begun
ends first, and writes the frame or segment and notifications (R160). A boundary without a migration touches no strand but the one whose
STEP retires, and no byte but those of notifications and of a shard that it completes (R36, R272). A restore touches no strand and
no other rank, sets the rank's step and seeds to those of its shard, and writes no byte but those of the pages that it puts down,
of their tables and of notifications (R276). The model's choices: the moment, the frames and the pages taken (logs 38, 39, 41, 45, 73),
a shard's layout and buddy and its words with the step and the seeds (log 33), that a boundary completes the shard of an open snapshot
(log 44), that the migrations take a page on a polder whatever the state of its lease (log 92), that none of the dies' requests may be
held after a change of route (log 48), and that bytes of a new frame lent since stay (log 105). -/
def Obligations.EngineRowsFrame : Prop :=
  (∀ (s s1 : State) (loc : Loc) (u : Nat) (m : Strand) (c : Client) (w : WalkWord) (i : Instr) (d a : Field) (arg x : Word)
      (b : Bool) (k : DieKey) (h : Held) (status : Nat),
    MemOk s → s.onBank loc.toNat = some (u, m) → s.strand u = some m → m.noted = [] → m.c.wait = .page →
    m.wordAt m.c.pos = some w → decode w.bits = some i → s.clientOf m = some c → PageForm m i d a arg b →
    s.heldBy u c (m.reg a) = some (k, h, x) → s.translatedOut h.job h.key = false → s.dieHeld k = false →
    s.uncopiedIn k h.job h.key h.off (sizeUnits h.size.toNat) = none → s.pageEnd i k h x = (status, s1) →
    ∃ t n, exec (.pageProcedureDone loc) s = .next t ∧ t.strand u = some n ∧
      n.reg d = (if d = 0 then 0 else wd status) ∧ (∀ j, j ≠ d → n.reg j = m.reg j) ∧ n.c.pos = m.c.pos + 1 ∧
      SameTables m n ∧ (∀ v, v ≠ u → t.strand v = s.strand v) ∧ t.ranks = s.ranks ∧ t.gangs = s.gangs ∧ t.nests = s.nests ∧
      t.tiles = s.tiles ∧ t.accs = s.accs ∧ t.accOwner = s.accOwner ∧ t.lsSeg = s.lsSeg ∧ t.csSeg = s.csSeg ∧
      t.msgs = s.msgs ∧ t.pkgs = s.pkgs ∧ (status ≠ 0 → t.mem = s.mem) ∧
      ∀ l, status = 0 → s.walk k h.job h.key h.ga = some l →
        (∀ f v e, (∃ y z, i = .pgmig d y z) →
          (s.die (dieOfPeer (BitVec.ofNat 12 x.toNat))).takeFrames (bit x 12) (sizeUnits l.size) = some (f, v) →
          e = movedLeaf l.leaf k (dieOfPeer (BitVec.ofNat 12 x.toNat)) (bit x 12) f →
          PageMoved s t k l (leafPlace k l.leaf).2 (leafPlace k e).2) ∧
        ∀ dies all, dies = (if s.replicas k l.leaf = [] then [k] else s.replicas k l.leaf) →
          s.sameLeaves h.job h.key h.ga l dies = some all →
          ((∃ y, i = .pgsplit d y) → ∀ x, ¬ Written (splitSpots all s) x → Memory.read t.mem x = Memory.read s.mem x) ∧
          ((∃ y z, i = .pgcoll d y z) → ∀ x, ¬ Written (leafSpots all) x → Memory.read t.mem x = Memory.read s.mem x)) ∧
  (∀ (s t : State) (die : DieKey), exec (.hwMigrationDone die) s = .next t →
    t.strands = s.strands ∧ t.gangs = s.gangs ∧ t.nests = s.nests ∧ t.tiles = s.tiles ∧ t.accs = s.accs ∧
    t.accOwner = s.accOwner ∧ t.lsSeg = s.lsSeg ∧ t.csSeg = s.csSeg ∧ t.msgs = s.msgs ∧ t.pkgs = s.pkgs ∧
    ((∀ h home f, FirstMigration (s.die die) h home f → s.uncopiedIn die h.job h.key h.off 1 = none) → t.ranks = s.ranks) ∧
    (MemOk s → t.mem = s.mem ∨ ∃ h home f l, FirstMigration (s.die die) h home f ∧ s.walk die h.job h.key h.off = some l ∧
      l.size = 0 ∧ leafMode l.leaf = 2 ∧
      PageMoved s t die l (leafPlace die l.leaf).2 (leafPlace die (movedLeaf l.leaf die home false f)).2)) ∧
  ((∀ (s t : State) (die : DieKey) (entry : BitVec 4), exec (.pageDemoteDone die entry) s = .next t →
      t.strands = s.strands ∧ t.gangs = s.gangs ∧ t.nests = s.nests ∧ t.tiles = s.tiles ∧ t.accs = s.accs ∧
      t.accOwner = s.accOwner ∧ t.lsSeg = s.lsSeg ∧ t.csSeg = s.csSeg ∧
      (∀ d, d ≠ die → (t.die d).polders = (s.die d).polders) ∧
      ∀ j, j ≠ entry.toNat → tabGet (t.die die).polders j = tabGet (s.die die).polders j) ∧
    ∀ (s t : State) (die : DieKey) (entry : BitVec 4) (p : Polder) (h : Held) (f : Nat) (g : LivePage) (l : LeafAt),
      MemOk s → tabGet (s.die die).polders entry.toNat = some p → p.borrower = true → p.state = 3 →
      (s.die die).copying entry.toNat = some (h, f) → s.translatedOut h.job h.key = false → s.dieHeld die = false →
      s.current die p = some g → s.reach die (dieOfPeer p.lender) (leafFrame g.leaf * 65536) = true →
      (s.die (dieOfPeer p.lender)).lends (peerOf die) (leafFrame g.leaf) = true →
      s.uncopiedIn die h.job h.key h.off g.units = none → exec (.pageDemoteDone die entry) s = .next t →
      l.leaf = g.leaf → l.lpddr = g.lpddr → l.at_ = g.at_ →
      PageMoved s t die l (leafPlace die g.leaf).2
        (leafPlace die (setLeaf g.leaf 1 (leafMode g.leaf) 0 f (leafRset g.leaf))).2 ∧
      ∀ k, tabGet (t.die die).polders entry.toNat = some k →
        g.granule ∉ k.todo.map (·.granule) ∧ k.live = BitVec.ofNat 32 k.todo.length ∧ k.lender = p.lender ∧ k.base = p.base ∧ k.len = p.len) ∧
  (∀ (s s0 s1 : State) (key gid o image : Nat) (r : Rank) (g : Gang) (rest : List Nat) (follow : FollowUp) (jobs : List SwitchJob),
    MemOk s → s.rank? key = some r → r.jobs = ⟨gid :: o :: rest, follow⟩ :: jobs → s.gang? gid = some g → g.resident = true →
    s.halted gid = true → g.image.or (s.freeImage key r) = some image → s.endMoves gid g = .ok s0 →
    s.switchGang gid g image = .ok s1 →
    ∃ t q e, exec (.gangSwitchOut key) s = .next t ∧ t.rank? key = some q ∧ q.jobs = ⟨o :: rest, follow⟩ :: jobs ∧
      t.gang? gid = some e ∧ e.resident = false ∧ e.image = some image ∧ e.live = g.live ∧ t.nests = s.nests ∧
      (∀ x, ¬ Written (leaveSpots gid g image ((s0.members gid).map (·.1)) s0) x →
        Memory.read t.mem x = Memory.read s0.mem x) ∧
      (∀ x, ¬ Written (moveSpots gid g s) x → ¬ InRing s x → Memory.read s0.mem x = Memory.read s.mem x) ∧
      ((∀ x, x ∈ s.lsSeg ∨ x ∈ s.csSeg → x.2.state = .active ∨ x.2.state = .idle) → s0 = s) ∧
      (∀ v n, s.strand v = some n → n.gang ≠ gid → t.strand v = some n) ∧
      ∀ v n, s.strand v = some n → n.gang = gid → n.place.isSome = true → n.state ≠ .ended → ∃ z, t.strand v = some z ∧
        z.place = none ∧ z.g = n.g ∧ z.tok = n.tok ∧ z.masks = n.masks ∧ z.lanes = n.lanes ∧ z.tcfg = n.tcfg ∧
        z.tstat = n.tstat ∧ z.boq = n.boq ∧ z.walk = n.walk ∧ z.prog = n.prog ∧ z.errq = n.errq ∧ z.frame = n.frame ∧
        (∀ t, (z.stream t).pc = (n.stream t).pc ∧ (z.stream t).pos = (n.stream t).pos ∧
          (z.stream t).delay = (n.stream t).delay) ∧ ∀ y, y ∈ z.cmds → y.2.state ≠ .running) ∧
  (∀ (s : State) (loc : Loc) (u : Nat) (m : Strand) (r : Rank),
    s.onBank loc.toNat = some (u, m) → s.strand u = some m → s.rank? m.rank = some r → m.c.wait = .step →
    m.canIssue = true → s.quiet u m .c = true → m.cmds = [] → r.stepping = none → s.reclaimOpen r = false →
    r.taken.move = none → MemOk s →
    ∃ t q, exec (.stepBoundary loc) s = .next t ∧ t.rank? m.rank = some q ∧ q.gstep = r.gstep + 1 ∧
      q.cls = r.pend.getD r.cls ∧ q.pend = none ∧ q.home = r.home ∧ q.stepping = none ∧
      t.strand u = some { m.retire .c with stepv := m.stepv + 1 } ∧ (∀ v, v ≠ u → t.strand v = s.strand v) ∧
      t.gangs = s.gangs ∧ t.nests = s.nests ∧ t.tiles = s.tiles ∧ t.accs = s.accs ∧ t.accOwner = s.accOwner ∧
      t.lsSeg = s.lsSeg ∧ t.csSeg = s.csSeg ∧
      ∀ x, (r.snapReq ≠ none → ¬ InShard r x) → ¬ InRing s x → Memory.read t.mem x = Memory.read s.mem x) ∧
  ∀ (s t : State) (l : List (Nat × Rank × List (BitVec 524288))), MemOk s → s.restoreAll l = some t → (l.map (·.1)).Nodup →
    (∀ x, ¬ Written (restoreSpots l s) x → ¬ InRing s x → Memory.read t.mem x = Memory.read s.mem x) ∧
    t.strands = s.strands ∧ t.gangs = s.gangs ∧ t.nests = s.nests ∧ t.tiles = s.tiles ∧ t.accs = s.accs ∧ t.msgs = s.msgs ∧
    (∀ key, key ∉ l.map (·.1) → t.rank? key = s.rank? key) ∧
    ∀ key r shard, (key, r, shard) ∈ l → ∃ q, t.rank? key = some q ∧ q.home = r.home ∧ q.job = r.job ∧ q.vrank = r.vrank ∧
      q.gstep = (pick (shardState shard) 0).setWidth 48 ∧ q.rseed = pick (shardState shard) 3 ∧
      q.pseed = pick (shardState shard) 4

/-- The rows of a rank's engines act: a round of the pre-copy, a page of the stamp sweep, a page of a snapshot (R134 to R136,
R268, R273). The model's choices: the order of a shard's parts (log 33), a round's frames and its dirty pages (log 42), the order
of the sweep (log 43), and the order of the snapshot's pages (log 44). -/
def Obligations.RankEnginesAct : Prop :=
  ∀ (i : Instr) (s t : State) (key : Nat) (r : Rank), s.rank? key = some r → EngineRow s key r i t → exec i s = .next t

/-! ### The platform and the Sluice -/

/-- Host actions and platform events: the start register, the steps of a start and their log, the window, the limits, the routes
(R271, R278 to R282, R287, R290, R292 to R294). A cold GO leaves no rank of the package and every lease of its dies FREE (R290). The
model's choices: NQLOST after NQOVF has been cleared (log 63), free values for words of the state window that the spec does not lay
out (log 35, log 72), which steps a start skips and how a warm start turns cold (log 59), the start register at offset 0xFFF8
(log 34), which counts are warned of (log 49), and what is held after a change of route (log 48). -/
def Obligations.PlatformRowsAct : Prop :=
  (∀ (i : Instr) (s : State) (p : Pkg) (k : Package), PackageRow s p (s.pkg p) i k →
    ∃ t, exec i s = .next t ∧ t.pkg p = k ∧ (∀ q, q ≠ p → t.pkg q = s.pkg q) ∧ t.mem = s.mem ∧ t.strands = s.strands ∧
      t.ranks = s.ranks ∧ t.dies = s.dies ∧ t.msgs = s.msgs) ∧
  (∀ (i : Instr) (s t : State) (p : Pkg), PlatformRow s p i t → exec i s = .next t) ∧
  ∀ (s : State) (p : Pkg), (s.pkg p).state = .off ∨ (s.pkg p).state = .failed →
    ∃ t, exec (.startCold p) s = .next t ∧ (t.pkg p).state = .starting ∧ (∀ e, e ∈ t.ranks → pkgOf e.2.home ≠ p) ∧
      (∀ e, e ∈ t.strands → ∀ r, s.rank? e.2.rank = some r → pkgOf r.home ≠ p) ∧
      ∀ d, pkgOf d = p → (t.die d).polders = []

/-- The loss of a package and a warm stop, with leases and ranks present. When a package hears that another is lost, every ACTIVE
or RECLAIMING entry of its own dies with a die of that package becomes FENCED, every other entry stays as it is, and so do the
entries of other packages' dies; a rank at home there whose pre-copy goes to the lost package, and which stands at no boundary,
gives its migration up, and strands, gangs, nests and tiles stay (R198, R270). A warm stop has every resident gang of the package's
ranks switched out before anything else, those of one nest in the order of R230: the package stays STARTED meanwhile, no byte of
memory, strand or gang changes at once, and from then on no gang of its ranks is dispatched or resumed (R293). The order of the gangs
of several nests, which `switchOrder` gives, is the model's choice (log 110). -/
def Obligations.LossAndWarmStopAct : Prop :=
  (∀ (s : State) (p other : Pkg), ∃ t, exec (.packageLost p other) s = .next t ∧
    t.strands = s.strands ∧ t.gangs = s.gangs ∧ t.nests = s.nests ∧ t.tiles = s.tiles ∧ t.accs = s.accs ∧
    (t.pkg p).lost.contains other = true ∧
    (∀ d, pkgOf d ≠ p → (t.die d).polders = (s.die d).polders) ∧
    (∀ d i q, pkgOf d = p → tabGet (s.die d).polders i = some q → ∃ k, tabGet (t.die d).polders i = some k ∧
      k.borrower = q.borrower ∧ k.lender = q.lender ∧ k.borrow = q.borrow ∧ k.base = q.base ∧ k.len = q.len ∧ k.job = q.job ∧
      (pkgOf (dieOfPeer (if q.borrower then q.lender else q.borrow)) = other → q.live? = true → k.state = 5) ∧
      (pkgOf (dieOfPeer (if q.borrower then q.lender else q.borrow)) ≠ other ∨ q.live? = false → k = q)) ∧
    ∀ key r v, s.rank? key = some r → r.precopy = some v → pkgOf r.home = p → pkgOf v.target = other → r.stepping = none →
      ∃ q, t.rank? key = some q ∧ q.home = r.home ∧ q.gstep = r.gstep ∧ q.precopy = none) ∧
  (∀ (s : State) (p : Pkg), (s.pkg p).state = .started → s.ranksIn p ≠ [] →
    (∀ e, e ∈ s.ranksIn p → s.rank? e.1 = some e.2 ∧ e.2.jobs = [] ∧
      ∃ g, g ∈ s.gangs ∧ g.2.rank = e.1 ∧ g.2.resident = true) →
    ∃ t, exec (.stopWarm p) s = .next t ∧ (t.pkg p).state = .started ∧ (t.pkg p).kind = 2 ∧ (t.pkg p).stopping = true ∧
      t.mem = s.mem ∧ t.strands = s.strands ∧ t.gangs = s.gangs ∧ t.nests = s.nests ∧ t.dies = s.dies ∧
      (∀ q, q ≠ p → t.pkg q = s.pkg q) ∧
      ∀ key r, s.rank? key = some r → ∃ q, t.rank? key = some q ∧ q.home = r.home ∧
        (pkgOf r.home = p → q.jobs.head? = some ⟨s.switchOrder fun _ g => g.rank = key, .warm p.toNat⟩) ∧
        (pkgOf r.home ≠ p → q = r)) ∧
  ∀ (s : State) (key lp cluster : Nat) (r : Rank), s.rank? key = some r → tabGet r.clusters lp = some cluster →
    (s.pkg (pkgOf r.home)).stopping = true →
    exec (.gangDispatch key lp) s = .next s ∧ exec (.gangResume key lp) s = .next s

/-- A cold stop of a started package (R279): it is OFF with WARMOK zero, its ranks, their strands and the contents of its stores
are gone (a lost byte reads as zero: the model's choice, log 2), and every byte of another package's stores is as it was. -/
def Obligations.ColdStopLosesItsPackage : Prop :=
  ∀ (s : State) (p : Pkg) (kind : BitVec 2), MemOk s → (s.pkg p).state = .started → kind ≠ 2 →
    ∃ t, exec (.stopCold p kind) s = .next t ∧ (t.pkg p).state = .off ∧ (t.pkg p).warmok = false ∧
      (∀ e, e ∈ t.ranks → pkgOf e.2.home ≠ p) ∧
      (∀ e, e ∈ t.strands → ∀ r, s.rank? e.2.rank = some r → pkgOf r.home ≠ p) ∧
      (∀ x store, store ≤ 4 → storeIn p store x = true → Memory.read t.mem x = 0) ∧
      (∀ x, x / 2 ^ 64 ≤ 4 → (∀ store, store ≤ 4 → storeIn p store x = false) →
        Memory.read t.mem x = Memory.read s.mem x)

/-- The gates of the Sluice (R280, R283, R290), for every command: while it accepts none, nothing changes; before start step 7 a
command other than SWREAD completes with 0xF3; from then on one with a reserved bit set completes with 0xF0. A command that no
row defines completes with 0xF0. The model's choices: the order of the refusals (log 57), when commands are accepted (log 58), and that
W0[8], which is PRIV in LAUNCH alone, counts as a reserved bit in every other command (log 119). -/
def Obligations.CommandsAreGated : Prop :=
  ∀ (s : State) (p : Pkg) (c : Command),
    ((s.pkg p).accepts = false → exec (decodeCommand p c) s = .next s) ∧
    ((s.pkg p).accepts = true → (s.pkg p).loaded = false → decodeCommand p c ≠ .swread p c →
      exec (decodeCommand p c) s = .next ((taken s p c).finish p s.ids 0xF3 0)) ∧
    ((s.pkg p).accepts = true → (s.pkg p).loaded = true → commandForm c = false →
      exec (decodeCommand p c) s = .next ((taken s p c).finish p s.ids 0xF0 0)) ∧
    ((s.pkg p).accepts = true → (s.pkg p).loaded = true →
      exec (.unknownOp p c) s = .next ((taken s p c).finish p s.ids 0xF0 0))

/-- The Sluice's commands take effect and complete with status 0 and their VALUE (R216 to R218, R283 to R288, R294 to R296,
R496); RECLAIM completes with its status (R188), and LEND and PREEMPT complete later (R187, R230). Where parity rows lie and
which packages form a group is the model's (log 33), and so are what RESTORE makes of leaves and of the old memory (log 45), what
waits (log 58), which of two refusals comes first (log 57), VALUE of RECLAIM and that LEASE asks for the rank to exist and not for its
home die to be reached (log 112), that PARITY and RESTORE ask for both (log 120), the order of the gangs of several nests in a PREEMPT
(log 110), that of two nests with one record address the first activated is named (log 117), what a new rank holds where the spec gives
no value (logs 6 and 7), and that SWCOPY copies an aligned word at each of its turns and completes with the last (R32, log 113). What a restore changes and leaves is in `EngineRowsFrame`. -/
def Obligations.CommandsComplete : Prop :=
  (∀ (i : Instr) (s t : State) (p : Pkg) (c : Command) (v : Word), Accepted s p c → DeviceCommand s p c i v t →
    exec i s = .next (t.finish p s.ids 0 v)) ∧
  (∀ (i : Instr) (s t : State) (p : Pkg) (c : Command) (r : Rank) (v : Word), Accepted s p c → ForRank s p c r →
    RankCommand (takenFor s p c r) p c (woken r) i v t → exec i s = .next (t.finish p s.ids 0 v)) ∧
  (∀ (s : State) (p : Pkg) (c : Command) (k : Nat), Accepted s p c →
    c.w4.toNat ≤ 2 ^ 20 → c.w2.toNat + c.w4.toNat ≤ 2 ^ 48 → c.w3.toNat + c.w4.toNat ≤ 2 ^ 64 →
    k = (s.pkg p).copied + (8 - (c.w2.toNat + (s.pkg p).copied) % 8) → k < c.w4.toNat →
    exec (.swcopy p c) s = .next
      ((s.copyWord p c.w2.toNat (hostAddr p.toNat c.w3.toNat) c.w4.toNat (s.pkg p).copied).1.updPkg p fun v => { v with copied := k })) ∧
  (∀ (s t : State) (p : Pkg) (c : Command) (r : Rank) (status : Nat), Accepted s p c → ForAnyHome s p c r → c.w2 = 1 →
    (takenFor s p c r).legHeld (sluiceDie p) (sluiceDie p) (dieOfPeer (BitVec.ofNat 12 c.w3.toNat)) = false →
    (takenFor s p c r).lendOut p (dieOfPeer (BitVec.ofNat 12 c.w3.toNat)) = false →
    (takenFor s p c r).reclaim (sluiceDie p) c.w3 = (t, status) →
    exec (.sluiceReclaim p c) s = .next (t.finish p s.ids (BitVec.ofNat 8 status) 0)) ∧
  (∀ (s : State) (p : Pkg) (c : Command) (r : Rank) (lender : DieKey), Accepted s p c → ForAnyHome s p c r → c.w2 = 0 →
    lender = dieOfPeer (BitVec.ofNat 12 (fld c.w3 19 8)) → (takenFor s p c r).reach (sluiceDie p) lender 0 = true →
    exec (.sluiceLend p c) s = .next ((takenFor s p c r).send (sluiceDie p) lender (64 * (takenFor s p c r).ids)
      (.lend c.w3 c.w4 c.w5 0 (.sluice p.toNat s.ids)))) ∧
  ∀ (i : Instr) (s t : State) (p : Pkg) (c : Command) (r : Rank), Accepted s p c → ForRank s p c r →
    LaterCommand (takenFor s p c r) p c (woken r) s.ids i t → exec i s = .next t

/-- Bank writes, and RESUME, which is the return from a fault, act on a FAULTED bank of the command's rank (R250, R251), and on
any other bank complete with 0xF3. After a Retry the strand of the bank is in RUN with its registers, tokens, masks, tiles,
outcomes and walk as the stop left them, every stream goes on at the word of its FPC, commands and store words go on, and FV is
cleared only if the command asks. The model's choices: commands beyond the 48 of their core wait for room (log 80), a branch word in
a delay slot or a word that could not be read is skipped as any other (logs 12 and 37), a faulted AST that is skipped is gone with
its rows (log 15), a bank of another rank completes with 0xF3 (log 58), which refusal comes first (log 57), and a written rotation
holds from the word of the C stream on (log 52). -/
def Obligations.FaultedBanksResume : Prop :=
  (∀ (i : Instr) (s t : State) (p : Pkg) (c : Command) (r : Rank) (u : Nat) (m : Strand),
    Accepted s p c → ForRank s p c r → c.w2.toNat < 2 ^ 20 → (takenFor s p c r).onBank c.w2.toNat = some (u, m) →
    BankCommand (takenFor s p c r) p c (woken r) u m i t →
    (m.rank = commandKey c → m.state = .faulted → exec i s = .next (t.finish p s.ids 0 0)) ∧
    (m.rank ≠ commandKey c ∨ m.state ≠ .faulted → exec i s = .next ((takenFor s p c r).finish p s.ids 0xF3 0))) ∧
  ∀ (s : State) (u loc : Nat) (m : Strand) (clear : Bool), s.strand u = some m →
    ∃ n, (s.resumeBank u m loc clear).strand u = some n ∧ n.state = .run ∧ n.g = m.g ∧ n.tok = m.tok ∧ n.masks = m.masks ∧
      n.boq = m.boq ∧ n.walk = m.walk ∧ n.prog = m.prog ∧ n.tcfg = m.tcfg ∧ n.lease = m.lease ∧
      (∀ t, n.stream t = m.stream t) ∧ (∀ a, a ∈ n.asts → a.stopped = false) ∧
      n.cmds.map (·.1) = m.cmds.map (·.1) ∧ (∀ e, e ∈ n.cmds → e.2.state = .running ∨ e.2.state = .stopped) ∧
      (m.cmds.length ≤ s.cmdRoom (locCore loc) → ∀ e, e ∈ n.cmds → e.2.state = .running) ∧
      (clear = false → n.frame = m.frame) ∧ (clear = true → bit n.frame[0] 15 = false) ∧
      (s.resumeBank u m loc clear).tiles = s.tiles ∧ (s.resumeBank u m loc clear).mem = s.mem ∧
      ∀ v, v ≠ u → (s.resumeBank u m loc clear).strand v = s.strand v

/-- A completion is written when its command's outcome is known and no earlier one is open (R282, R283, R288): TAG, STATUS and
VALUE at CQTAIL, which advances; with an earlier command still open, or a full ring, nothing is written. -/
def Obligations.CompletionsAreWrittenInOrder : Prop :=
  ∀ (s : State) (p : Pkg) (ticket : Nat) (status : BitVec 8) (value : Word) (tag : BitVec 16),
    MemOk s →
    ((s.pkg p).pending = [⟨ticket, none, tag⟩] → (s.pkg p).cqReady = true → (s.pkg p).cqFull = false →
      let t := s.finish p ticket status value
      (t.rd (hostAddr p.toNat ((s.pkg p).cqbase.toNat + 16 * (s.pkg p).cqtail.toNat)) 16 =
        tag.toNat + status.toNat * 2 ^ 16 + value.toNat * 2 ^ 64) ∧
      (t.pkg p).pending = [] ∧ (t.pkg p).cqtail = ringNext (s.pkg p).cqsize (s.pkg p).cqtail) ∧
    (∀ first rest, (s.pkg p).pending = ⟨first, none, tag⟩ :: rest → first ≠ ticket →
      (s.finish p ticket status value).mem = s.mem) ∧
    ((s.pkg p).cqFull = true → (s.finish p ticket status value).mem = s.mem)
end

