-- ==== Sys2Proof/Laws/State.lean ====
section
/-! SUPPORT. What each update of the state and of a strand leaves in each field: one lemma per field and update. -/

namespace Sys2Proof.Machine

/-! ### The state -/

@[simp] theorem State.wr_mem (s : State) (a n v : Nat) : (s.wr a n v).mem = Memory.writeNat s.mem a n v := rfl
@[simp] theorem State.wr_fe (s : State) (a n v : Nat) : (s.wr a n v).fe = s.fe := rfl
@[simp] theorem State.wr_strands (s : State) (a n v : Nat) : (s.wr a n v).strands = s.strands := rfl
@[simp] theorem State.wr_gangs (s : State) (a n v : Nat) : (s.wr a n v).gangs = s.gangs := rfl
@[simp] theorem State.wr_nests (s : State) (a n v : Nat) : (s.wr a n v).nests = s.nests := rfl
@[simp] theorem State.wr_ranks (s : State) (a n v : Nat) : (s.wr a n v).ranks = s.ranks := rfl
@[simp] theorem State.wr_tiles (s : State) (a n v : Nat) : (s.wr a n v).tiles = s.tiles := rfl
@[simp] theorem State.wr_accs (s : State) (a n v : Nat) : (s.wr a n v).accs = s.accs := rfl
@[simp] theorem State.wr_accOwner (s : State) (a n v : Nat) : (s.wr a n v).accOwner = s.accOwner := rfl
@[simp] theorem State.wr_books (s : State) (a n v : Nat) : (s.wr a n v).books = s.books := rfl
@[simp] theorem State.wr_array (s : State) (a n v : Nat) : (s.wr a n v).array = s.array := rfl
@[simp] theorem State.wr_arrayLast (s : State) (a n v : Nat) : (s.wr a n v).arrayLast = s.arrayLast := rfl
@[simp] theorem State.wr_arrayReq (s : State) (a n v : Nat) : (s.wr a n v).arrayReq = s.arrayReq := rfl
@[simp] theorem State.wr_lsSeg (s : State) (a n v : Nat) : (s.wr a n v).lsSeg = s.lsSeg := rfl
@[simp] theorem State.wr_csSeg (s : State) (a n v : Nat) : (s.wr a n v).csSeg = s.csSeg := rfl
@[simp] theorem State.wr_owner (s : State) (a n v : Nat) : (s.wr a n v).owner = s.owner := rfl
@[simp] theorem State.wr_shadowTile (s : State) (a n v : Nat) : (s.wr a n v).shadowTile = s.shadowTile := rfl
@[simp] theorem State.wr_shadowAcc (s : State) (a n v : Nat) : (s.wr a n v).shadowAcc = s.shadowAcc := rfl
@[simp] theorem State.wr_dies (s : State) (a n v : Nat) : (s.wr a n v).dies = s.dies := rfl
@[simp] theorem State.wr_pkgs (s : State) (a n v : Nat) : (s.wr a n v).pkgs = s.pkgs := rfl
@[simp] theorem State.wr_msgs (s : State) (a n v : Nat) : (s.wr a n v).msgs = s.msgs := rfl
@[simp] theorem State.wr_links (s : State) (a n v : Nat) : (s.wr a n v).links = s.links := rfl
@[simp] theorem State.wr_cur (s : State) (a n v : Nat) : (s.wr a n v).cur = s.cur := rfl
@[simp] theorem State.wr_subject (s : State) (a n v : Nat) : (s.wr a n v).subject = s.subject := rfl
@[simp] theorem State.wr_turns (s : State) (a n v : Nat) : (s.wr a n v).turns = s.turns := rfl
@[simp] theorem State.wr_ids (s : State) (a n v : Nat) : (s.wr a n v).ids = s.ids := rfl
@[simp] theorem State.wr_nfree (s : State) (a n v : Nat) : (s.wr a n v).nfree = s.nfree := rfl

@[simp] theorem State.setFull_mem (s : State) (g : Nat) : (s.setFull g).mem = s.mem := rfl
@[simp] theorem State.setFull_fe (s : State) (g : Nat) : (s.setFull g).fe = natIns s.fe g := rfl
@[simp] theorem State.setFull_strands (s : State) (g : Nat) : (s.setFull g).strands = s.strands := rfl
@[simp] theorem State.setFull_gangs (s : State) (g : Nat) : (s.setFull g).gangs = s.gangs := rfl
@[simp] theorem State.setFull_nests (s : State) (g : Nat) : (s.setFull g).nests = s.nests := rfl
@[simp] theorem State.setFull_ranks (s : State) (g : Nat) : (s.setFull g).ranks = s.ranks := rfl
@[simp] theorem State.setFull_tiles (s : State) (g : Nat) : (s.setFull g).tiles = s.tiles := rfl
@[simp] theorem State.setFull_accs (s : State) (g : Nat) : (s.setFull g).accs = s.accs := rfl
@[simp] theorem State.setFull_accOwner (s : State) (g : Nat) : (s.setFull g).accOwner = s.accOwner := rfl
@[simp] theorem State.setFull_books (s : State) (g : Nat) : (s.setFull g).books = s.books := rfl
@[simp] theorem State.setFull_array (s : State) (g : Nat) : (s.setFull g).array = s.array := rfl
@[simp] theorem State.setFull_arrayLast (s : State) (g : Nat) : (s.setFull g).arrayLast = s.arrayLast := rfl
@[simp] theorem State.setFull_arrayReq (s : State) (g : Nat) : (s.setFull g).arrayReq = s.arrayReq := rfl
@[simp] theorem State.setFull_lsSeg (s : State) (g : Nat) : (s.setFull g).lsSeg = s.lsSeg := rfl
@[simp] theorem State.setFull_csSeg (s : State) (g : Nat) : (s.setFull g).csSeg = s.csSeg := rfl
@[simp] theorem State.setFull_owner (s : State) (g : Nat) : (s.setFull g).owner = s.owner := rfl
@[simp] theorem State.setFull_shadowTile (s : State) (g : Nat) : (s.setFull g).shadowTile = s.shadowTile := rfl
@[simp] theorem State.setFull_shadowAcc (s : State) (g : Nat) : (s.setFull g).shadowAcc = s.shadowAcc := rfl
@[simp] theorem State.setFull_dies (s : State) (g : Nat) : (s.setFull g).dies = s.dies := rfl
@[simp] theorem State.setFull_pkgs (s : State) (g : Nat) : (s.setFull g).pkgs = s.pkgs := rfl
@[simp] theorem State.setFull_msgs (s : State) (g : Nat) : (s.setFull g).msgs = s.msgs := rfl
@[simp] theorem State.setFull_links (s : State) (g : Nat) : (s.setFull g).links = s.links := rfl
@[simp] theorem State.setFull_cur (s : State) (g : Nat) : (s.setFull g).cur = s.cur := rfl
@[simp] theorem State.setFull_subject (s : State) (g : Nat) : (s.setFull g).subject = s.subject := rfl
@[simp] theorem State.setFull_turns (s : State) (g : Nat) : (s.setFull g).turns = s.turns := rfl
@[simp] theorem State.setFull_ids (s : State) (g : Nat) : (s.setFull g).ids = s.ids := rfl
@[simp] theorem State.setFull_nfree (s : State) (g : Nat) : (s.setFull g).nfree = s.nfree := rfl

@[simp] theorem State.setEmpty_mem (s : State) (g : Nat) : (s.setEmpty g).mem = s.mem := rfl
@[simp] theorem State.setEmpty_fe (s : State) (g : Nat) : (s.setEmpty g).fe = s.fe.filter (· ≠ g) := rfl
@[simp] theorem State.setEmpty_strands (s : State) (g : Nat) : (s.setEmpty g).strands = s.strands := rfl
@[simp] theorem State.setEmpty_gangs (s : State) (g : Nat) : (s.setEmpty g).gangs = s.gangs := rfl
@[simp] theorem State.setEmpty_nests (s : State) (g : Nat) : (s.setEmpty g).nests = s.nests := rfl
@[simp] theorem State.setEmpty_ranks (s : State) (g : Nat) : (s.setEmpty g).ranks = s.ranks := rfl
@[simp] theorem State.setEmpty_tiles (s : State) (g : Nat) : (s.setEmpty g).tiles = s.tiles := rfl
@[simp] theorem State.setEmpty_accs (s : State) (g : Nat) : (s.setEmpty g).accs = s.accs := rfl
@[simp] theorem State.setEmpty_accOwner (s : State) (g : Nat) : (s.setEmpty g).accOwner = s.accOwner := rfl
@[simp] theorem State.setEmpty_books (s : State) (g : Nat) : (s.setEmpty g).books = s.books := rfl
@[simp] theorem State.setEmpty_array (s : State) (g : Nat) : (s.setEmpty g).array = s.array := rfl
@[simp] theorem State.setEmpty_arrayLast (s : State) (g : Nat) : (s.setEmpty g).arrayLast = s.arrayLast := rfl
@[simp] theorem State.setEmpty_arrayReq (s : State) (g : Nat) : (s.setEmpty g).arrayReq = s.arrayReq := rfl
@[simp] theorem State.setEmpty_lsSeg (s : State) (g : Nat) : (s.setEmpty g).lsSeg = s.lsSeg := rfl
@[simp] theorem State.setEmpty_csSeg (s : State) (g : Nat) : (s.setEmpty g).csSeg = s.csSeg := rfl
@[simp] theorem State.setEmpty_owner (s : State) (g : Nat) : (s.setEmpty g).owner = s.owner := rfl
@[simp] theorem State.setEmpty_shadowTile (s : State) (g : Nat) : (s.setEmpty g).shadowTile = s.shadowTile := rfl
@[simp] theorem State.setEmpty_shadowAcc (s : State) (g : Nat) : (s.setEmpty g).shadowAcc = s.shadowAcc := rfl
@[simp] theorem State.setEmpty_dies (s : State) (g : Nat) : (s.setEmpty g).dies = s.dies := rfl
@[simp] theorem State.setEmpty_pkgs (s : State) (g : Nat) : (s.setEmpty g).pkgs = s.pkgs := rfl
@[simp] theorem State.setEmpty_msgs (s : State) (g : Nat) : (s.setEmpty g).msgs = s.msgs := rfl
@[simp] theorem State.setEmpty_links (s : State) (g : Nat) : (s.setEmpty g).links = s.links := rfl
@[simp] theorem State.setEmpty_cur (s : State) (g : Nat) : (s.setEmpty g).cur = s.cur := rfl
@[simp] theorem State.setEmpty_subject (s : State) (g : Nat) : (s.setEmpty g).subject = s.subject := rfl
@[simp] theorem State.setEmpty_turns (s : State) (g : Nat) : (s.setEmpty g).turns = s.turns := rfl
@[simp] theorem State.setEmpty_ids (s : State) (g : Nat) : (s.setEmpty g).ids = s.ids := rfl
@[simp] theorem State.setEmpty_nfree (s : State) (g : Nat) : (s.setEmpty g).nfree = s.nfree := rfl

@[simp] theorem State.setStrand_mem (s : State) (u : Nat) (m : Strand) : (s.setStrand u m).mem = s.mem := rfl
@[simp] theorem State.setStrand_fe (s : State) (u : Nat) (m : Strand) : (s.setStrand u m).fe = s.fe := rfl
@[simp] theorem State.setStrand_strands (s : State) (u : Nat) (m : Strand) : (s.setStrand u m).strands = tabPut s.strands u m := rfl
@[simp] theorem State.setStrand_gangs (s : State) (u : Nat) (m : Strand) : (s.setStrand u m).gangs = s.gangs := rfl
@[simp] theorem State.setStrand_nests (s : State) (u : Nat) (m : Strand) : (s.setStrand u m).nests = s.nests := rfl
@[simp] theorem State.setStrand_ranks (s : State) (u : Nat) (m : Strand) : (s.setStrand u m).ranks = s.ranks := rfl
@[simp] theorem State.setStrand_tiles (s : State) (u : Nat) (m : Strand) : (s.setStrand u m).tiles = s.tiles := rfl
@[simp] theorem State.setStrand_accs (s : State) (u : Nat) (m : Strand) : (s.setStrand u m).accs = s.accs := rfl
@[simp] theorem State.setStrand_accOwner (s : State) (u : Nat) (m : Strand) : (s.setStrand u m).accOwner = s.accOwner := rfl
@[simp] theorem State.setStrand_books (s : State) (u : Nat) (m : Strand) : (s.setStrand u m).books = s.books := rfl
@[simp] theorem State.setStrand_array (s : State) (u : Nat) (m : Strand) : (s.setStrand u m).array = s.array := rfl
@[simp] theorem State.setStrand_arrayLast (s : State) (u : Nat) (m : Strand) : (s.setStrand u m).arrayLast = s.arrayLast := rfl
@[simp] theorem State.setStrand_arrayReq (s : State) (u : Nat) (m : Strand) : (s.setStrand u m).arrayReq = s.arrayReq := rfl
@[simp] theorem State.setStrand_lsSeg (s : State) (u : Nat) (m : Strand) : (s.setStrand u m).lsSeg = s.lsSeg := rfl
@[simp] theorem State.setStrand_csSeg (s : State) (u : Nat) (m : Strand) : (s.setStrand u m).csSeg = s.csSeg := rfl
@[simp] theorem State.setStrand_owner (s : State) (u : Nat) (m : Strand) : (s.setStrand u m).owner = s.owner := rfl
@[simp] theorem State.setStrand_shadowTile (s : State) (u : Nat) (m : Strand) : (s.setStrand u m).shadowTile = s.shadowTile := rfl
@[simp] theorem State.setStrand_shadowAcc (s : State) (u : Nat) (m : Strand) : (s.setStrand u m).shadowAcc = s.shadowAcc := rfl
@[simp] theorem State.setStrand_dies (s : State) (u : Nat) (m : Strand) : (s.setStrand u m).dies = s.dies := rfl
@[simp] theorem State.setStrand_pkgs (s : State) (u : Nat) (m : Strand) : (s.setStrand u m).pkgs = s.pkgs := rfl
@[simp] theorem State.setStrand_msgs (s : State) (u : Nat) (m : Strand) : (s.setStrand u m).msgs = s.msgs := rfl
@[simp] theorem State.setStrand_links (s : State) (u : Nat) (m : Strand) : (s.setStrand u m).links = s.links := rfl
@[simp] theorem State.setStrand_cur (s : State) (u : Nat) (m : Strand) : (s.setStrand u m).cur = s.cur := rfl
@[simp] theorem State.setStrand_subject (s : State) (u : Nat) (m : Strand) : (s.setStrand u m).subject = s.subject := rfl
@[simp] theorem State.setStrand_turns (s : State) (u : Nat) (m : Strand) : (s.setStrand u m).turns = s.turns := rfl
@[simp] theorem State.setStrand_ids (s : State) (u : Nat) (m : Strand) : (s.setStrand u m).ids = s.ids := rfl
@[simp] theorem State.setStrand_nfree (s : State) (u : Nat) (m : Strand) : (s.setStrand u m).nfree = s.nfree := rfl

@[simp] theorem State.setRank_mem (s : State) (r : Nat) (v : Rank) : (s.setRank r v).mem = s.mem := rfl
@[simp] theorem State.setRank_fe (s : State) (r : Nat) (v : Rank) : (s.setRank r v).fe = s.fe := rfl
@[simp] theorem State.setRank_strands (s : State) (r : Nat) (v : Rank) : (s.setRank r v).strands = s.strands := rfl
@[simp] theorem State.setRank_gangs (s : State) (r : Nat) (v : Rank) : (s.setRank r v).gangs = s.gangs := rfl
@[simp] theorem State.setRank_nests (s : State) (r : Nat) (v : Rank) : (s.setRank r v).nests = s.nests := rfl
@[simp] theorem State.setRank_ranks (s : State) (r : Nat) (v : Rank) : (s.setRank r v).ranks = tabPut s.ranks r v := rfl
@[simp] theorem State.setRank_tiles (s : State) (r : Nat) (v : Rank) : (s.setRank r v).tiles = s.tiles := rfl
@[simp] theorem State.setRank_accs (s : State) (r : Nat) (v : Rank) : (s.setRank r v).accs = s.accs := rfl
@[simp] theorem State.setRank_accOwner (s : State) (r : Nat) (v : Rank) : (s.setRank r v).accOwner = s.accOwner := rfl
@[simp] theorem State.setRank_books (s : State) (r : Nat) (v : Rank) : (s.setRank r v).books = s.books := rfl
@[simp] theorem State.setRank_array (s : State) (r : Nat) (v : Rank) : (s.setRank r v).array = s.array := rfl
@[simp] theorem State.setRank_arrayLast (s : State) (r : Nat) (v : Rank) : (s.setRank r v).arrayLast = s.arrayLast := rfl
@[simp] theorem State.setRank_arrayReq (s : State) (r : Nat) (v : Rank) : (s.setRank r v).arrayReq = s.arrayReq := rfl
@[simp] theorem State.setRank_lsSeg (s : State) (r : Nat) (v : Rank) : (s.setRank r v).lsSeg = s.lsSeg := rfl
@[simp] theorem State.setRank_csSeg (s : State) (r : Nat) (v : Rank) : (s.setRank r v).csSeg = s.csSeg := rfl
@[simp] theorem State.setRank_owner (s : State) (r : Nat) (v : Rank) : (s.setRank r v).owner = s.owner := rfl
@[simp] theorem State.setRank_shadowTile (s : State) (r : Nat) (v : Rank) : (s.setRank r v).shadowTile = s.shadowTile := rfl
@[simp] theorem State.setRank_shadowAcc (s : State) (r : Nat) (v : Rank) : (s.setRank r v).shadowAcc = s.shadowAcc := rfl
@[simp] theorem State.setRank_dies (s : State) (r : Nat) (v : Rank) : (s.setRank r v).dies = s.dies := rfl
@[simp] theorem State.setRank_pkgs (s : State) (r : Nat) (v : Rank) : (s.setRank r v).pkgs = s.pkgs := rfl
@[simp] theorem State.setRank_msgs (s : State) (r : Nat) (v : Rank) : (s.setRank r v).msgs = s.msgs := rfl
@[simp] theorem State.setRank_links (s : State) (r : Nat) (v : Rank) : (s.setRank r v).links = s.links := rfl
@[simp] theorem State.setRank_cur (s : State) (r : Nat) (v : Rank) : (s.setRank r v).cur = s.cur := rfl
@[simp] theorem State.setRank_subject (s : State) (r : Nat) (v : Rank) : (s.setRank r v).subject = s.subject := rfl
@[simp] theorem State.setRank_turns (s : State) (r : Nat) (v : Rank) : (s.setRank r v).turns = s.turns := rfl
@[simp] theorem State.setRank_ids (s : State) (r : Nat) (v : Rank) : (s.setRank r v).ids = s.ids := rfl
@[simp] theorem State.setRank_nfree (s : State) (r : Nat) (v : Rank) : (s.setRank r v).nfree = s.nfree := rfl

@[simp] theorem State.setDie_mem (s : State) (d : DieKey) (v : Die) : (s.setDie d v).mem = s.mem := rfl
@[simp] theorem State.setDie_fe (s : State) (d : DieKey) (v : Die) : (s.setDie d v).fe = s.fe := rfl
@[simp] theorem State.setDie_strands (s : State) (d : DieKey) (v : Die) : (s.setDie d v).strands = s.strands := rfl
@[simp] theorem State.setDie_gangs (s : State) (d : DieKey) (v : Die) : (s.setDie d v).gangs = s.gangs := rfl
@[simp] theorem State.setDie_nests (s : State) (d : DieKey) (v : Die) : (s.setDie d v).nests = s.nests := rfl
@[simp] theorem State.setDie_ranks (s : State) (d : DieKey) (v : Die) : (s.setDie d v).ranks = s.ranks := rfl
@[simp] theorem State.setDie_tiles (s : State) (d : DieKey) (v : Die) : (s.setDie d v).tiles = s.tiles := rfl
@[simp] theorem State.setDie_accs (s : State) (d : DieKey) (v : Die) : (s.setDie d v).accs = s.accs := rfl
@[simp] theorem State.setDie_accOwner (s : State) (d : DieKey) (v : Die) : (s.setDie d v).accOwner = s.accOwner := rfl
@[simp] theorem State.setDie_books (s : State) (d : DieKey) (v : Die) : (s.setDie d v).books = s.books := rfl
@[simp] theorem State.setDie_array (s : State) (d : DieKey) (v : Die) : (s.setDie d v).array = s.array := rfl
@[simp] theorem State.setDie_arrayLast (s : State) (d : DieKey) (v : Die) : (s.setDie d v).arrayLast = s.arrayLast := rfl
@[simp] theorem State.setDie_arrayReq (s : State) (d : DieKey) (v : Die) : (s.setDie d v).arrayReq = s.arrayReq := rfl
@[simp] theorem State.setDie_lsSeg (s : State) (d : DieKey) (v : Die) : (s.setDie d v).lsSeg = s.lsSeg := rfl
@[simp] theorem State.setDie_csSeg (s : State) (d : DieKey) (v : Die) : (s.setDie d v).csSeg = s.csSeg := rfl
@[simp] theorem State.setDie_owner (s : State) (d : DieKey) (v : Die) : (s.setDie d v).owner = s.owner := rfl
@[simp] theorem State.setDie_shadowTile (s : State) (d : DieKey) (v : Die) : (s.setDie d v).shadowTile = s.shadowTile := rfl
@[simp] theorem State.setDie_shadowAcc (s : State) (d : DieKey) (v : Die) : (s.setDie d v).shadowAcc = s.shadowAcc := rfl
@[simp] theorem State.setDie_dies (s : State) (d : DieKey) (v : Die) : (s.setDie d v).dies = tabPut s.dies d.toNat v := rfl
@[simp] theorem State.setDie_pkgs (s : State) (d : DieKey) (v : Die) : (s.setDie d v).pkgs = s.pkgs := rfl
@[simp] theorem State.setDie_msgs (s : State) (d : DieKey) (v : Die) : (s.setDie d v).msgs = s.msgs := rfl
@[simp] theorem State.setDie_links (s : State) (d : DieKey) (v : Die) : (s.setDie d v).links = s.links := rfl
@[simp] theorem State.setDie_cur (s : State) (d : DieKey) (v : Die) : (s.setDie d v).cur = s.cur := rfl
@[simp] theorem State.setDie_subject (s : State) (d : DieKey) (v : Die) : (s.setDie d v).subject = s.subject := rfl
@[simp] theorem State.setDie_turns (s : State) (d : DieKey) (v : Die) : (s.setDie d v).turns = s.turns := rfl
@[simp] theorem State.setDie_ids (s : State) (d : DieKey) (v : Die) : (s.setDie d v).ids = s.ids := rfl
@[simp] theorem State.setDie_nfree (s : State) (d : DieKey) (v : Die) : (s.setDie d v).nfree = s.nfree := rfl

@[simp] theorem State.setPkg_mem (s : State) (p : Pkg) (v : Package) : (s.setPkg p v).mem = s.mem := rfl
@[simp] theorem State.setPkg_fe (s : State) (p : Pkg) (v : Package) : (s.setPkg p v).fe = s.fe := rfl
@[simp] theorem State.setPkg_strands (s : State) (p : Pkg) (v : Package) : (s.setPkg p v).strands = s.strands := rfl
@[simp] theorem State.setPkg_gangs (s : State) (p : Pkg) (v : Package) : (s.setPkg p v).gangs = s.gangs := rfl
@[simp] theorem State.setPkg_nests (s : State) (p : Pkg) (v : Package) : (s.setPkg p v).nests = s.nests := rfl
@[simp] theorem State.setPkg_ranks (s : State) (p : Pkg) (v : Package) : (s.setPkg p v).ranks = s.ranks := rfl
@[simp] theorem State.setPkg_tiles (s : State) (p : Pkg) (v : Package) : (s.setPkg p v).tiles = s.tiles := rfl
@[simp] theorem State.setPkg_accs (s : State) (p : Pkg) (v : Package) : (s.setPkg p v).accs = s.accs := rfl
@[simp] theorem State.setPkg_accOwner (s : State) (p : Pkg) (v : Package) : (s.setPkg p v).accOwner = s.accOwner := rfl
@[simp] theorem State.setPkg_books (s : State) (p : Pkg) (v : Package) : (s.setPkg p v).books = s.books := rfl
@[simp] theorem State.setPkg_array (s : State) (p : Pkg) (v : Package) : (s.setPkg p v).array = s.array := rfl
@[simp] theorem State.setPkg_arrayLast (s : State) (p : Pkg) (v : Package) : (s.setPkg p v).arrayLast = s.arrayLast := rfl
@[simp] theorem State.setPkg_arrayReq (s : State) (p : Pkg) (v : Package) : (s.setPkg p v).arrayReq = s.arrayReq := rfl
@[simp] theorem State.setPkg_lsSeg (s : State) (p : Pkg) (v : Package) : (s.setPkg p v).lsSeg = s.lsSeg := rfl
@[simp] theorem State.setPkg_csSeg (s : State) (p : Pkg) (v : Package) : (s.setPkg p v).csSeg = s.csSeg := rfl
@[simp] theorem State.setPkg_owner (s : State) (p : Pkg) (v : Package) : (s.setPkg p v).owner = s.owner := rfl
@[simp] theorem State.setPkg_shadowTile (s : State) (p : Pkg) (v : Package) : (s.setPkg p v).shadowTile = s.shadowTile := rfl
@[simp] theorem State.setPkg_shadowAcc (s : State) (p : Pkg) (v : Package) : (s.setPkg p v).shadowAcc = s.shadowAcc := rfl
@[simp] theorem State.setPkg_dies (s : State) (p : Pkg) (v : Package) : (s.setPkg p v).dies = s.dies := rfl
@[simp] theorem State.setPkg_pkgs (s : State) (p : Pkg) (v : Package) : (s.setPkg p v).pkgs = tabPut s.pkgs p.toNat v := rfl
@[simp] theorem State.setPkg_msgs (s : State) (p : Pkg) (v : Package) : (s.setPkg p v).msgs = s.msgs := rfl
@[simp] theorem State.setPkg_links (s : State) (p : Pkg) (v : Package) : (s.setPkg p v).links = s.links := rfl
@[simp] theorem State.setPkg_cur (s : State) (p : Pkg) (v : Package) : (s.setPkg p v).cur = s.cur := rfl
@[simp] theorem State.setPkg_subject (s : State) (p : Pkg) (v : Package) : (s.setPkg p v).subject = s.subject := rfl
@[simp] theorem State.setPkg_turns (s : State) (p : Pkg) (v : Package) : (s.setPkg p v).turns = s.turns := rfl
@[simp] theorem State.setPkg_ids (s : State) (p : Pkg) (v : Package) : (s.setPkg p v).ids = s.ids := rfl
@[simp] theorem State.setPkg_nfree (s : State) (p : Pkg) (v : Package) : (s.setPkg p v).nfree = s.nfree := rfl

/-! ### A strand -/

@[simp] theorem Strand.setReg_rank (m : Strand) (i : Field) (v : Word) : (m.setReg i v).rank = m.rank := by
  unfold Strand.setReg; split <;> rfl
@[simp] theorem Strand.setReg_gang (m : Strand) (i : Field) (v : Word) : (m.setReg i v).gang = m.gang := by
  unfold Strand.setReg; split <;> rfl
@[simp] theorem Strand.setReg_member (m : Strand) (i : Field) (v : Word) : (m.setReg i v).member = m.member := by
  unfold Strand.setReg; split <;> rfl
@[simp] theorem Strand.setReg_place (m : Strand) (i : Field) (v : Word) : (m.setReg i v).place = m.place := by
  unfold Strand.setReg; split <;> rfl
@[simp] theorem Strand.setReg_priv (m : Strand) (i : Field) (v : Word) : (m.setReg i v).priv = m.priv := by
  unfold Strand.setReg; split <;> rfl
@[simp] theorem Strand.setReg_c (m : Strand) (i : Field) (v : Word) : (m.setReg i v).c = m.c := by
  unfold Strand.setReg; split <;> rfl
@[simp] theorem Strand.setReg_l (m : Strand) (i : Field) (v : Word) : (m.setReg i v).l = m.l := by
  unfold Strand.setReg; split <;> rfl
@[simp] theorem Strand.setReg_x (m : Strand) (i : Field) (v : Word) : (m.setReg i v).x = m.x := by
  unfold Strand.setReg; split <;> rfl
@[simp] theorem Strand.setReg_s (m : Strand) (i : Field) (v : Word) : (m.setReg i v).s = m.s := by
  unfold Strand.setReg; split <;> rfl
@[simp] theorem Strand.setReg_walk (m : Strand) (i : Field) (v : Word) : (m.setReg i v).walk = m.walk := by
  unfold Strand.setReg; split <;> rfl
@[simp] theorem Strand.setReg_boq (m : Strand) (i : Field) (v : Word) : (m.setReg i v).boq = m.boq := by
  unfold Strand.setReg; split <;> rfl
@[simp] theorem Strand.setReg_tok (m : Strand) (i : Field) (v : Word) : (m.setReg i v).tok = m.tok := by
  unfold Strand.setReg; split <;> rfl
@[simp] theorem Strand.setReg_masks (m : Strand) (i : Field) (v : Word) : (m.setReg i v).masks = m.masks := by
  unfold Strand.setReg; split <;> rfl
@[simp] theorem Strand.setReg_lanes (m : Strand) (i : Field) (v : Word) : (m.setReg i v).lanes = m.lanes := by
  unfold Strand.setReg; split <;> rfl
@[simp] theorem Strand.setReg_win (m : Strand) (i : Field) (v : Word) : (m.setReg i v).win = m.win := by
  unfold Strand.setReg; split <;> rfl
@[simp] theorem Strand.setReg_base (m : Strand) (i : Field) (v : Word) : (m.setReg i v).base = m.base := by
  unfold Strand.setReg; split <;> rfl
@[simp] theorem Strand.setReg_size (m : Strand) (i : Field) (v : Word) : (m.setReg i v).size = m.size := by
  unfold Strand.setReg; split <;> rfl
@[simp] theorem Strand.setReg_nrot (m : Strand) (i : Field) (v : Word) : (m.setReg i v).nrot = m.nrot := by
  unfold Strand.setReg; split <;> rfl
@[simp] theorem Strand.setReg_rrb (m : Strand) (i : Field) (v : Word) : (m.setReg i v).rrb = m.rrb := by
  unfold Strand.setReg; split <;> rfl
@[simp] theorem Strand.setReg_tcfg (m : Strand) (i : Field) (v : Word) : (m.setReg i v).tcfg = m.tcfg := by
  unfold Strand.setReg; split <;> rfl
@[simp] theorem Strand.setReg_tstat (m : Strand) (i : Field) (v : Word) : (m.setReg i v).tstat = m.tstat := by
  unfold Strand.setReg; split <;> rfl
@[simp] theorem Strand.setReg_lease (m : Strand) (i : Field) (v : Word) : (m.setReg i v).lease = m.lease := by
  unfold Strand.setReg; split <;> rfl
@[simp] theorem Strand.setReg_rnd (m : Strand) (i : Field) (v : Word) : (m.setReg i v).rnd = m.rnd := by
  unfold Strand.setReg; split <;> rfl
@[simp] theorem Strand.setReg_ieee (m : Strand) (i : Field) (v : Word) : (m.setReg i v).ieee = m.ieee := by
  unfold Strand.setReg; split <;> rfl
@[simp] theorem Strand.setReg_lfLane (m : Strand) (i : Field) (v : Word) : (m.setReg i v).lfLane = m.lfLane := by
  unfold Strand.setReg; split <;> rfl
@[simp] theorem Strand.setReg_lfAuto (m : Strand) (i : Field) (v : Word) : (m.setReg i v).lfAuto = m.lfAuto := by
  unfold Strand.setReg; split <;> rfl
@[simp] theorem Strand.setReg_mEntry (m : Strand) (i : Field) (v : Word) : (m.setReg i v).mEntry = m.mEntry := by
  unfold Strand.setReg; split <;> rfl
@[simp] theorem Strand.setReg_mWord (m : Strand) (i : Field) (v : Word) : (m.setReg i v).mWord = m.mWord := by
  unfold Strand.setReg; split <;> rfl
@[simp] theorem Strand.setReg_feGroup (m : Strand) (i : Field) (v : Word) : (m.setReg i v).feGroup = m.feGroup := by
  unfold Strand.setReg; split <;> rfl
@[simp] theorem Strand.setReg_stepv (m : Strand) (i : Field) (v : Word) : (m.setReg i v).stepv = m.stepv := by
  unfold Strand.setReg; split <;> rfl
@[simp] theorem Strand.setReg_bindA (m : Strand) (i : Field) (v : Word) : (m.setReg i v).bindA = m.bindA := by
  unfold Strand.setReg; split <;> rfl
@[simp] theorem Strand.setReg_bindB (m : Strand) (i : Field) (v : Word) : (m.setReg i v).bindB = m.bindB := by
  unfold Strand.setReg; split <;> rfl
@[simp] theorem Strand.setReg_dmap (m : Strand) (i : Field) (v : Word) : (m.setReg i v).dmap = m.dmap := by
  unfold Strand.setReg; split <;> rfl
@[simp] theorem Strand.setReg_cmds (m : Strand) (i : Field) (v : Word) : (m.setReg i v).cmds = m.cmds := by
  unfold Strand.setReg; split <;> rfl
@[simp] theorem Strand.setReg_asts (m : Strand) (i : Field) (v : Word) : (m.setReg i v).asts = m.asts := by
  unfold Strand.setReg; split <;> rfl
@[simp] theorem Strand.setReg_prog (m : Strand) (i : Field) (v : Word) : (m.setReg i v).prog = m.prog := by
  unfold Strand.setReg; split <;> rfl
@[simp] theorem Strand.setReg_frame (m : Strand) (i : Field) (v : Word) : (m.setReg i v).frame = m.frame := by
  unfold Strand.setReg; split <;> rfl
@[simp] theorem Strand.setReg_noted (m : Strand) (i : Field) (v : Word) : (m.setReg i v).noted = m.noted := by
  unfold Strand.setReg; split <;> rfl
@[simp] theorem Strand.setReg_errq (m : Strand) (i : Field) (v : Word) : (m.setReg i v).errq = m.errq := by
  unfold Strand.setReg; split <;> rfl
@[simp] theorem Strand.setReg_errOvf (m : Strand) (i : Field) (v : Word) : (m.setReg i v).errOvf = m.errOvf := by
  unfold Strand.setReg; split <;> rfl
@[simp] theorem Strand.setReg_trig (m : Strand) (i : Field) (v : Word) : (m.setReg i v).trig = m.trig := by
  unfold Strand.setReg; split <;> rfl
@[simp] theorem Strand.setReg_state (m : Strand) (i : Field) (v : Word) : (m.setReg i v).state = m.state := by
  unfold Strand.setReg; split <;> rfl
@[simp] theorem Strand.setReg_saved (m : Strand) (i : Field) (v : Word) : (m.setReg i v).saved = m.saved := by
  unfold Strand.setReg; split <;> rfl
@[simp] theorem Strand.setReg_acq (m : Strand) (i : Field) (v : Word) : (m.setReg i v).acq = m.acq := by
  unfold Strand.setReg; split <;> rfl
@[simp] theorem Strand.setReg_colls (m : Strand) (i : Field) (v : Word) : (m.setReg i v).colls = m.colls := by
  unfold Strand.setReg; split <;> rfl
@[simp] theorem Strand.setReg_early (m : Strand) (i : Field) (v : Word) : (m.setReg i v).early = m.early := by
  unfold Strand.setReg; split <;> rfl
@[simp] theorem Strand.setReg_taker (m : Strand) (i : Field) (v : Word) : (m.setReg i v).taker = m.taker := by
  unfold Strand.setReg; split <;> rfl

@[simp] theorem Strand.setStream_rank (m : Strand) (t : Stream) (p : StreamSt) : (m.setStream t p).rank = m.rank := by cases t <;> rfl
@[simp] theorem Strand.setStream_gang (m : Strand) (t : Stream) (p : StreamSt) : (m.setStream t p).gang = m.gang := by cases t <;> rfl
@[simp] theorem Strand.setStream_member (m : Strand) (t : Stream) (p : StreamSt) : (m.setStream t p).member = m.member := by cases t <;> rfl
@[simp] theorem Strand.setStream_place (m : Strand) (t : Stream) (p : StreamSt) : (m.setStream t p).place = m.place := by cases t <;> rfl
@[simp] theorem Strand.setStream_priv (m : Strand) (t : Stream) (p : StreamSt) : (m.setStream t p).priv = m.priv := by cases t <;> rfl
@[simp] theorem Strand.setStream_c (m : Strand) (t : Stream) (p : StreamSt) : (m.setStream t p).c = if t = .c then p else m.c := by cases t <;> rfl
@[simp] theorem Strand.setStream_l (m : Strand) (t : Stream) (p : StreamSt) : (m.setStream t p).l = if t = .l then p else m.l := by cases t <;> rfl
@[simp] theorem Strand.setStream_x (m : Strand) (t : Stream) (p : StreamSt) : (m.setStream t p).x = if t = .x then p else m.x := by cases t <;> rfl
@[simp] theorem Strand.setStream_s (m : Strand) (t : Stream) (p : StreamSt) : (m.setStream t p).s = if t = .s then p else m.s := by cases t <;> rfl
@[simp] theorem Strand.setStream_walk (m : Strand) (t : Stream) (p : StreamSt) : (m.setStream t p).walk = m.walk := by cases t <;> rfl
@[simp] theorem Strand.setStream_boq (m : Strand) (t : Stream) (p : StreamSt) : (m.setStream t p).boq = m.boq := by cases t <;> rfl
@[simp] theorem Strand.setStream_g (m : Strand) (t : Stream) (p : StreamSt) : (m.setStream t p).g = m.g := by cases t <;> rfl
@[simp] theorem Strand.setStream_tok (m : Strand) (t : Stream) (p : StreamSt) : (m.setStream t p).tok = m.tok := by cases t <;> rfl
@[simp] theorem Strand.setStream_masks (m : Strand) (t : Stream) (p : StreamSt) : (m.setStream t p).masks = m.masks := by cases t <;> rfl
@[simp] theorem Strand.setStream_lanes (m : Strand) (t : Stream) (p : StreamSt) : (m.setStream t p).lanes = m.lanes := by cases t <;> rfl
@[simp] theorem Strand.setStream_win (m : Strand) (t : Stream) (p : StreamSt) : (m.setStream t p).win = m.win := by cases t <;> rfl
@[simp] theorem Strand.setStream_base (m : Strand) (t : Stream) (p : StreamSt) : (m.setStream t p).base = m.base := by cases t <;> rfl
@[simp] theorem Strand.setStream_size (m : Strand) (t : Stream) (p : StreamSt) : (m.setStream t p).size = m.size := by cases t <;> rfl
@[simp] theorem Strand.setStream_nrot (m : Strand) (t : Stream) (p : StreamSt) : (m.setStream t p).nrot = m.nrot := by cases t <;> rfl
@[simp] theorem Strand.setStream_rrb (m : Strand) (t : Stream) (p : StreamSt) : (m.setStream t p).rrb = m.rrb := by cases t <;> rfl
@[simp] theorem Strand.setStream_tcfg (m : Strand) (t : Stream) (p : StreamSt) : (m.setStream t p).tcfg = m.tcfg := by cases t <;> rfl
@[simp] theorem Strand.setStream_tstat (m : Strand) (t : Stream) (p : StreamSt) : (m.setStream t p).tstat = m.tstat := by cases t <;> rfl
@[simp] theorem Strand.setStream_lease (m : Strand) (t : Stream) (p : StreamSt) : (m.setStream t p).lease = m.lease := by cases t <;> rfl
@[simp] theorem Strand.setStream_rnd (m : Strand) (t : Stream) (p : StreamSt) : (m.setStream t p).rnd = m.rnd := by cases t <;> rfl
@[simp] theorem Strand.setStream_ieee (m : Strand) (t : Stream) (p : StreamSt) : (m.setStream t p).ieee = m.ieee := by cases t <;> rfl
@[simp] theorem Strand.setStream_lfLane (m : Strand) (t : Stream) (p : StreamSt) : (m.setStream t p).lfLane = m.lfLane := by cases t <;> rfl
@[simp] theorem Strand.setStream_lfAuto (m : Strand) (t : Stream) (p : StreamSt) : (m.setStream t p).lfAuto = m.lfAuto := by cases t <;> rfl
@[simp] theorem Strand.setStream_mEntry (m : Strand) (t : Stream) (p : StreamSt) : (m.setStream t p).mEntry = m.mEntry := by cases t <;> rfl
@[simp] theorem Strand.setStream_mWord (m : Strand) (t : Stream) (p : StreamSt) : (m.setStream t p).mWord = m.mWord := by cases t <;> rfl
@[simp] theorem Strand.setStream_feGroup (m : Strand) (t : Stream) (p : StreamSt) : (m.setStream t p).feGroup = m.feGroup := by cases t <;> rfl
@[simp] theorem Strand.setStream_stepv (m : Strand) (t : Stream) (p : StreamSt) : (m.setStream t p).stepv = m.stepv := by cases t <;> rfl
@[simp] theorem Strand.setStream_bindA (m : Strand) (t : Stream) (p : StreamSt) : (m.setStream t p).bindA = m.bindA := by cases t <;> rfl
@[simp] theorem Strand.setStream_bindB (m : Strand) (t : Stream) (p : StreamSt) : (m.setStream t p).bindB = m.bindB := by cases t <;> rfl
@[simp] theorem Strand.setStream_dmap (m : Strand) (t : Stream) (p : StreamSt) : (m.setStream t p).dmap = m.dmap := by cases t <;> rfl
@[simp] theorem Strand.setStream_cmds (m : Strand) (t : Stream) (p : StreamSt) : (m.setStream t p).cmds = m.cmds := by cases t <;> rfl
@[simp] theorem Strand.setStream_asts (m : Strand) (t : Stream) (p : StreamSt) : (m.setStream t p).asts = m.asts := by cases t <;> rfl
@[simp] theorem Strand.setStream_prog (m : Strand) (t : Stream) (p : StreamSt) : (m.setStream t p).prog = m.prog := by cases t <;> rfl
@[simp] theorem Strand.setStream_frame (m : Strand) (t : Stream) (p : StreamSt) : (m.setStream t p).frame = m.frame := by cases t <;> rfl
@[simp] theorem Strand.setStream_noted (m : Strand) (t : Stream) (p : StreamSt) : (m.setStream t p).noted = m.noted := by cases t <;> rfl
@[simp] theorem Strand.setStream_errq (m : Strand) (t : Stream) (p : StreamSt) : (m.setStream t p).errq = m.errq := by cases t <;> rfl
@[simp] theorem Strand.setStream_errOvf (m : Strand) (t : Stream) (p : StreamSt) : (m.setStream t p).errOvf = m.errOvf := by cases t <;> rfl
@[simp] theorem Strand.setStream_trig (m : Strand) (t : Stream) (p : StreamSt) : (m.setStream t p).trig = m.trig := by cases t <;> rfl
@[simp] theorem Strand.setStream_state (m : Strand) (t : Stream) (p : StreamSt) : (m.setStream t p).state = m.state := by cases t <;> rfl
@[simp] theorem Strand.setStream_saved (m : Strand) (t : Stream) (p : StreamSt) : (m.setStream t p).saved = m.saved := by cases t <;> rfl
@[simp] theorem Strand.setStream_acq (m : Strand) (t : Stream) (p : StreamSt) : (m.setStream t p).acq = m.acq := by cases t <;> rfl
@[simp] theorem Strand.setStream_colls (m : Strand) (t : Stream) (p : StreamSt) : (m.setStream t p).colls = m.colls := by cases t <;> rfl
@[simp] theorem Strand.setStream_early (m : Strand) (t : Stream) (p : StreamSt) : (m.setStream t p).early = m.early := by cases t <;> rfl
@[simp] theorem Strand.setStream_taker (m : Strand) (t : Stream) (p : StreamSt) : (m.setStream t p).taker = m.taker := by cases t <;> rfl

@[simp] theorem Strand.markDone_rank (m : Strand) (t : Stream) : (m.markDone t).rank = m.rank := rfl
@[simp] theorem Strand.markDone_gang (m : Strand) (t : Stream) : (m.markDone t).gang = m.gang := rfl
@[simp] theorem Strand.markDone_member (m : Strand) (t : Stream) : (m.markDone t).member = m.member := rfl
@[simp] theorem Strand.markDone_place (m : Strand) (t : Stream) : (m.markDone t).place = m.place := rfl
@[simp] theorem Strand.markDone_priv (m : Strand) (t : Stream) : (m.markDone t).priv = m.priv := rfl
@[simp] theorem Strand.markDone_c (m : Strand) (t : Stream) : (m.markDone t).c = m.c := rfl
@[simp] theorem Strand.markDone_l (m : Strand) (t : Stream) : (m.markDone t).l = m.l := rfl
@[simp] theorem Strand.markDone_x (m : Strand) (t : Stream) : (m.markDone t).x = m.x := rfl
@[simp] theorem Strand.markDone_s (m : Strand) (t : Stream) : (m.markDone t).s = m.s := rfl
@[simp] theorem Strand.markDone_boq (m : Strand) (t : Stream) : (m.markDone t).boq = m.boq := rfl
@[simp] theorem Strand.markDone_g (m : Strand) (t : Stream) : (m.markDone t).g = m.g := rfl
@[simp] theorem Strand.markDone_tok (m : Strand) (t : Stream) : (m.markDone t).tok = m.tok := rfl
@[simp] theorem Strand.markDone_masks (m : Strand) (t : Stream) : (m.markDone t).masks = m.masks := rfl
@[simp] theorem Strand.markDone_lanes (m : Strand) (t : Stream) : (m.markDone t).lanes = m.lanes := rfl
@[simp] theorem Strand.markDone_win (m : Strand) (t : Stream) : (m.markDone t).win = m.win := rfl
@[simp] theorem Strand.markDone_base (m : Strand) (t : Stream) : (m.markDone t).base = m.base := rfl
@[simp] theorem Strand.markDone_size (m : Strand) (t : Stream) : (m.markDone t).size = m.size := rfl
@[simp] theorem Strand.markDone_nrot (m : Strand) (t : Stream) : (m.markDone t).nrot = m.nrot := rfl
@[simp] theorem Strand.markDone_rrb (m : Strand) (t : Stream) : (m.markDone t).rrb = m.rrb := rfl
@[simp] theorem Strand.markDone_tcfg (m : Strand) (t : Stream) : (m.markDone t).tcfg = m.tcfg := rfl
@[simp] theorem Strand.markDone_tstat (m : Strand) (t : Stream) : (m.markDone t).tstat = m.tstat := rfl
@[simp] theorem Strand.markDone_lease (m : Strand) (t : Stream) : (m.markDone t).lease = m.lease := rfl
@[simp] theorem Strand.markDone_rnd (m : Strand) (t : Stream) : (m.markDone t).rnd = m.rnd := rfl
@[simp] theorem Strand.markDone_ieee (m : Strand) (t : Stream) : (m.markDone t).ieee = m.ieee := rfl
@[simp] theorem Strand.markDone_lfLane (m : Strand) (t : Stream) : (m.markDone t).lfLane = m.lfLane := rfl
@[simp] theorem Strand.markDone_lfAuto (m : Strand) (t : Stream) : (m.markDone t).lfAuto = m.lfAuto := rfl
@[simp] theorem Strand.markDone_mEntry (m : Strand) (t : Stream) : (m.markDone t).mEntry = m.mEntry := rfl
@[simp] theorem Strand.markDone_mWord (m : Strand) (t : Stream) : (m.markDone t).mWord = m.mWord := rfl
@[simp] theorem Strand.markDone_feGroup (m : Strand) (t : Stream) : (m.markDone t).feGroup = m.feGroup := rfl
@[simp] theorem Strand.markDone_stepv (m : Strand) (t : Stream) : (m.markDone t).stepv = m.stepv := rfl
@[simp] theorem Strand.markDone_bindA (m : Strand) (t : Stream) : (m.markDone t).bindA = m.bindA := rfl
@[simp] theorem Strand.markDone_bindB (m : Strand) (t : Stream) : (m.markDone t).bindB = m.bindB := rfl
@[simp] theorem Strand.markDone_dmap (m : Strand) (t : Stream) : (m.markDone t).dmap = m.dmap := rfl
@[simp] theorem Strand.markDone_cmds (m : Strand) (t : Stream) : (m.markDone t).cmds = m.cmds := rfl
@[simp] theorem Strand.markDone_asts (m : Strand) (t : Stream) : (m.markDone t).asts = m.asts := rfl
@[simp] theorem Strand.markDone_prog (m : Strand) (t : Stream) : (m.markDone t).prog = m.prog := rfl
@[simp] theorem Strand.markDone_frame (m : Strand) (t : Stream) : (m.markDone t).frame = m.frame := rfl
@[simp] theorem Strand.markDone_noted (m : Strand) (t : Stream) : (m.markDone t).noted = m.noted := rfl
@[simp] theorem Strand.markDone_errq (m : Strand) (t : Stream) : (m.markDone t).errq = m.errq := rfl
@[simp] theorem Strand.markDone_errOvf (m : Strand) (t : Stream) : (m.markDone t).errOvf = m.errOvf := rfl
@[simp] theorem Strand.markDone_trig (m : Strand) (t : Stream) : (m.markDone t).trig = m.trig := rfl
@[simp] theorem Strand.markDone_state (m : Strand) (t : Stream) : (m.markDone t).state = m.state := rfl
@[simp] theorem Strand.markDone_saved (m : Strand) (t : Stream) : (m.markDone t).saved = m.saved := rfl
@[simp] theorem Strand.markDone_acq (m : Strand) (t : Stream) : (m.markDone t).acq = m.acq := rfl
@[simp] theorem Strand.markDone_colls (m : Strand) (t : Stream) : (m.markDone t).colls = m.colls := rfl
@[simp] theorem Strand.markDone_early (m : Strand) (t : Stream) : (m.markDone t).early = m.early := rfl
@[simp] theorem Strand.markDone_taker (m : Strand) (t : Stream) : (m.markDone t).taker = m.taker := rfl

@[simp] theorem Strand.prune_rank (m : Strand) : m.prune.rank = m.rank := rfl
@[simp] theorem Strand.prune_gang (m : Strand) : m.prune.gang = m.gang := rfl
@[simp] theorem Strand.prune_member (m : Strand) : m.prune.member = m.member := rfl
@[simp] theorem Strand.prune_place (m : Strand) : m.prune.place = m.place := rfl
@[simp] theorem Strand.prune_priv (m : Strand) : m.prune.priv = m.priv := rfl
@[simp] theorem Strand.prune_c (m : Strand) : m.prune.c = m.c := rfl
@[simp] theorem Strand.prune_l (m : Strand) : m.prune.l = m.l := rfl
@[simp] theorem Strand.prune_x (m : Strand) : m.prune.x = m.x := rfl
@[simp] theorem Strand.prune_s (m : Strand) : m.prune.s = m.s := rfl
@[simp] theorem Strand.prune_g (m : Strand) : m.prune.g = m.g := rfl
@[simp] theorem Strand.prune_tok (m : Strand) : m.prune.tok = m.tok := rfl
@[simp] theorem Strand.prune_masks (m : Strand) : m.prune.masks = m.masks := rfl
@[simp] theorem Strand.prune_lanes (m : Strand) : m.prune.lanes = m.lanes := rfl
@[simp] theorem Strand.prune_win (m : Strand) : m.prune.win = m.win := rfl
@[simp] theorem Strand.prune_base (m : Strand) : m.prune.base = m.base := rfl
@[simp] theorem Strand.prune_size (m : Strand) : m.prune.size = m.size := rfl
@[simp] theorem Strand.prune_nrot (m : Strand) : m.prune.nrot = m.nrot := rfl
@[simp] theorem Strand.prune_rrb (m : Strand) : m.prune.rrb = m.rrb := rfl
@[simp] theorem Strand.prune_tcfg (m : Strand) : m.prune.tcfg = m.tcfg := rfl
@[simp] theorem Strand.prune_tstat (m : Strand) : m.prune.tstat = m.tstat := rfl
@[simp] theorem Strand.prune_lease (m : Strand) : m.prune.lease = m.lease := rfl
@[simp] theorem Strand.prune_rnd (m : Strand) : m.prune.rnd = m.rnd := rfl
@[simp] theorem Strand.prune_ieee (m : Strand) : m.prune.ieee = m.ieee := rfl
@[simp] theorem Strand.prune_lfLane (m : Strand) : m.prune.lfLane = m.lfLane := rfl
@[simp] theorem Strand.prune_lfAuto (m : Strand) : m.prune.lfAuto = m.lfAuto := rfl
@[simp] theorem Strand.prune_mEntry (m : Strand) : m.prune.mEntry = m.mEntry := rfl
@[simp] theorem Strand.prune_mWord (m : Strand) : m.prune.mWord = m.mWord := rfl
@[simp] theorem Strand.prune_feGroup (m : Strand) : m.prune.feGroup = m.feGroup := rfl
@[simp] theorem Strand.prune_stepv (m : Strand) : m.prune.stepv = m.stepv := rfl
@[simp] theorem Strand.prune_bindA (m : Strand) : m.prune.bindA = m.bindA := rfl
@[simp] theorem Strand.prune_bindB (m : Strand) : m.prune.bindB = m.bindB := rfl
@[simp] theorem Strand.prune_dmap (m : Strand) : m.prune.dmap = m.dmap := rfl
@[simp] theorem Strand.prune_cmds (m : Strand) : m.prune.cmds = m.cmds := rfl
@[simp] theorem Strand.prune_asts (m : Strand) : m.prune.asts = m.asts := rfl
@[simp] theorem Strand.prune_prog (m : Strand) : m.prune.prog = m.prog := rfl
@[simp] theorem Strand.prune_frame (m : Strand) : m.prune.frame = m.frame := rfl
@[simp] theorem Strand.prune_noted (m : Strand) : m.prune.noted = m.noted := rfl
@[simp] theorem Strand.prune_errq (m : Strand) : m.prune.errq = m.errq := rfl
@[simp] theorem Strand.prune_errOvf (m : Strand) : m.prune.errOvf = m.errOvf := rfl
@[simp] theorem Strand.prune_trig (m : Strand) : m.prune.trig = m.trig := rfl
@[simp] theorem Strand.prune_state (m : Strand) : m.prune.state = m.state := rfl
@[simp] theorem Strand.prune_saved (m : Strand) : m.prune.saved = m.saved := rfl
@[simp] theorem Strand.prune_acq (m : Strand) : m.prune.acq = m.acq := rfl
@[simp] theorem Strand.prune_colls (m : Strand) : m.prune.colls = m.colls := rfl
@[simp] theorem Strand.prune_early (m : Strand) : m.prune.early = m.early := rfl
@[simp] theorem Strand.prune_taker (m : Strand) : m.prune.taker = m.taker := rfl

@[simp] theorem Strand.setToken_rank (m : Strand) (k : BitVec 4) (v : BitVec 16) : (m.setToken k v).rank = m.rank := rfl
@[simp] theorem Strand.setToken_gang (m : Strand) (k : BitVec 4) (v : BitVec 16) : (m.setToken k v).gang = m.gang := rfl
@[simp] theorem Strand.setToken_member (m : Strand) (k : BitVec 4) (v : BitVec 16) : (m.setToken k v).member = m.member := rfl
@[simp] theorem Strand.setToken_place (m : Strand) (k : BitVec 4) (v : BitVec 16) : (m.setToken k v).place = m.place := rfl
@[simp] theorem Strand.setToken_priv (m : Strand) (k : BitVec 4) (v : BitVec 16) : (m.setToken k v).priv = m.priv := rfl
@[simp] theorem Strand.setToken_c (m : Strand) (k : BitVec 4) (v : BitVec 16) : (m.setToken k v).c = m.c := rfl
@[simp] theorem Strand.setToken_l (m : Strand) (k : BitVec 4) (v : BitVec 16) : (m.setToken k v).l = m.l := rfl
@[simp] theorem Strand.setToken_x (m : Strand) (k : BitVec 4) (v : BitVec 16) : (m.setToken k v).x = m.x := rfl
@[simp] theorem Strand.setToken_s (m : Strand) (k : BitVec 4) (v : BitVec 16) : (m.setToken k v).s = m.s := rfl
@[simp] theorem Strand.setToken_walk (m : Strand) (k : BitVec 4) (v : BitVec 16) : (m.setToken k v).walk = m.walk := rfl
@[simp] theorem Strand.setToken_boq (m : Strand) (k : BitVec 4) (v : BitVec 16) : (m.setToken k v).boq = m.boq := rfl
@[simp] theorem Strand.setToken_g (m : Strand) (k : BitVec 4) (v : BitVec 16) : (m.setToken k v).g = m.g := rfl
@[simp] theorem Strand.setToken_tok (m : Strand) (k : BitVec 4) (v : BitVec 16) : (m.setToken k v).tok = m.tok.set k.toNat v := rfl
@[simp] theorem Strand.setToken_masks (m : Strand) (k : BitVec 4) (v : BitVec 16) : (m.setToken k v).masks = m.masks := rfl
@[simp] theorem Strand.setToken_lanes (m : Strand) (k : BitVec 4) (v : BitVec 16) : (m.setToken k v).lanes = m.lanes := rfl
@[simp] theorem Strand.setToken_win (m : Strand) (k : BitVec 4) (v : BitVec 16) : (m.setToken k v).win = m.win := rfl
@[simp] theorem Strand.setToken_base (m : Strand) (k : BitVec 4) (v : BitVec 16) : (m.setToken k v).base = m.base := rfl
@[simp] theorem Strand.setToken_size (m : Strand) (k : BitVec 4) (v : BitVec 16) : (m.setToken k v).size = m.size := rfl
@[simp] theorem Strand.setToken_nrot (m : Strand) (k : BitVec 4) (v : BitVec 16) : (m.setToken k v).nrot = m.nrot := rfl
@[simp] theorem Strand.setToken_rrb (m : Strand) (k : BitVec 4) (v : BitVec 16) : (m.setToken k v).rrb = m.rrb := rfl
@[simp] theorem Strand.setToken_tcfg (m : Strand) (k : BitVec 4) (v : BitVec 16) : (m.setToken k v).tcfg = m.tcfg := rfl
@[simp] theorem Strand.setToken_tstat (m : Strand) (k : BitVec 4) (v : BitVec 16) : (m.setToken k v).tstat = m.tstat := rfl
@[simp] theorem Strand.setToken_lease (m : Strand) (k : BitVec 4) (v : BitVec 16) : (m.setToken k v).lease = m.lease := rfl
@[simp] theorem Strand.setToken_rnd (m : Strand) (k : BitVec 4) (v : BitVec 16) : (m.setToken k v).rnd = m.rnd := rfl
@[simp] theorem Strand.setToken_ieee (m : Strand) (k : BitVec 4) (v : BitVec 16) : (m.setToken k v).ieee = m.ieee := rfl
@[simp] theorem Strand.setToken_lfLane (m : Strand) (k : BitVec 4) (v : BitVec 16) : (m.setToken k v).lfLane = m.lfLane := rfl
@[simp] theorem Strand.setToken_lfAuto (m : Strand) (k : BitVec 4) (v : BitVec 16) : (m.setToken k v).lfAuto = m.lfAuto := rfl
@[simp] theorem Strand.setToken_mEntry (m : Strand) (k : BitVec 4) (v : BitVec 16) : (m.setToken k v).mEntry = m.mEntry := rfl
@[simp] theorem Strand.setToken_mWord (m : Strand) (k : BitVec 4) (v : BitVec 16) : (m.setToken k v).mWord = m.mWord := rfl
@[simp] theorem Strand.setToken_feGroup (m : Strand) (k : BitVec 4) (v : BitVec 16) : (m.setToken k v).feGroup = m.feGroup := rfl
@[simp] theorem Strand.setToken_stepv (m : Strand) (k : BitVec 4) (v : BitVec 16) : (m.setToken k v).stepv = m.stepv := rfl
@[simp] theorem Strand.setToken_bindA (m : Strand) (k : BitVec 4) (v : BitVec 16) : (m.setToken k v).bindA = m.bindA := rfl
@[simp] theorem Strand.setToken_bindB (m : Strand) (k : BitVec 4) (v : BitVec 16) : (m.setToken k v).bindB = m.bindB := rfl
@[simp] theorem Strand.setToken_dmap (m : Strand) (k : BitVec 4) (v : BitVec 16) : (m.setToken k v).dmap = m.dmap := rfl
@[simp] theorem Strand.setToken_cmds (m : Strand) (k : BitVec 4) (v : BitVec 16) : (m.setToken k v).cmds = m.cmds := rfl
@[simp] theorem Strand.setToken_asts (m : Strand) (k : BitVec 4) (v : BitVec 16) : (m.setToken k v).asts = m.asts := rfl
@[simp] theorem Strand.setToken_prog (m : Strand) (k : BitVec 4) (v : BitVec 16) : (m.setToken k v).prog = m.prog := rfl
@[simp] theorem Strand.setToken_frame (m : Strand) (k : BitVec 4) (v : BitVec 16) : (m.setToken k v).frame = m.frame := rfl
@[simp] theorem Strand.setToken_noted (m : Strand) (k : BitVec 4) (v : BitVec 16) : (m.setToken k v).noted = m.noted := rfl
@[simp] theorem Strand.setToken_errq (m : Strand) (k : BitVec 4) (v : BitVec 16) : (m.setToken k v).errq = m.errq := rfl
@[simp] theorem Strand.setToken_errOvf (m : Strand) (k : BitVec 4) (v : BitVec 16) : (m.setToken k v).errOvf = m.errOvf := rfl
@[simp] theorem Strand.setToken_trig (m : Strand) (k : BitVec 4) (v : BitVec 16) : (m.setToken k v).trig = m.trig := rfl
@[simp] theorem Strand.setToken_state (m : Strand) (k : BitVec 4) (v : BitVec 16) : (m.setToken k v).state = m.state := rfl
@[simp] theorem Strand.setToken_saved (m : Strand) (k : BitVec 4) (v : BitVec 16) : (m.setToken k v).saved = m.saved := rfl
@[simp] theorem Strand.setToken_acq (m : Strand) (k : BitVec 4) (v : BitVec 16) : (m.setToken k v).acq = m.acq := rfl
@[simp] theorem Strand.setToken_colls (m : Strand) (k : BitVec 4) (v : BitVec 16) : (m.setToken k v).colls = m.colls := rfl
@[simp] theorem Strand.setToken_early (m : Strand) (k : BitVec 4) (v : BitVec 16) : (m.setToken k v).early = m.early := rfl
@[simp] theorem Strand.setToken_taker (m : Strand) (k : BitVec 4) (v : BitVec 16) : (m.setToken k v).taker = m.taker := rfl

end Sys2Proof.Machine
end

