-- ==== Sys2Proof/Laws/Memory.lean ====
section
/-! SUPPORT. Memory: what a read sees after a write, and that every write keeps the canonical form. -/

namespace Sys2Proof.Machine

/-- The canonical form as a relation on the list: addresses rise and no entry is empty. -/
theorem Memory.wf_iff (m : List Host.Cell) :
    Memory.wf m = true ↔ m.Pairwise (fun x y => x.1 < y.1) ∧ ∀ e ∈ m, e.2 ≠ Memory.empty := by
  induction m with
  | nil => simp [Memory.wf]
  | cons x r ih =>
    cases r with
    | nil => simp [Memory.wf]
    | cons y q =>
      simp only [Memory.wf, Bool.and_eq_true, decide_eq_true_eq, ih, List.pairwise_cons, List.mem_cons]
      constructor
      · rintro ⟨⟨h1, h2⟩, ⟨h3, h4⟩, h5⟩
        refine ⟨⟨?_, h3, h4⟩, ?_⟩
        · rintro e (rfl | he)
          · exact h1
          · exact Nat.lt_trans h1 (h3 e he)
        · rintro e (rfl | he)
          · simpa using h2
          · exact h5 e he
      · rintro ⟨⟨h1, h3, h4⟩, h5⟩
        exact ⟨⟨h1 y (.inl rfl), by simpa using h5 x (.inl rfl)⟩, ⟨h3, h4⟩, fun e he => h5 e (.inr he)⟩

/-- Below the least address of a canonical list nothing is listed. -/
theorem Memory.read_below (m : List Host.Cell) (a : Nat) (h : ∀ e ∈ m, a < e.1) : Memory.read m a = Memory.empty := by
  cases m with
  | nil => rfl
  | cons x r =>
    have hx := h x (by simp)
    simp only [Memory.read]
    rw [if_neg (by omega), if_pos hx]

/-- The addresses listed after a write are those listed before and the one written. -/
theorem Memory.mem_write (m : List Host.Cell) (a : Nat) (v : Byte) (e : Host.Cell) (h : e ∈ Memory.write m a v) :
    e ∈ m ∨ e = (a, v) ∧ v ≠ Memory.empty := by
  induction m with
  | nil => unfold Memory.write at h; split at h <;> simp_all
  | cons x r ih =>
    obtain ⟨c, b⟩ := x
    unfold Memory.write at h
    split at h
    · split at h
      · exact .inl h
      · rename_i hv
        rcases List.mem_cons.1 h with h | h
        · exact .inr ⟨h, hv⟩
        · exact .inl h
    · split at h
      · split at h
        · exact .inl (List.mem_cons_of_mem _ h)
        · rename_i hc hv
          rcases List.mem_cons.1 h with h | h
          · exact .inr ⟨by rw [h, hc], hv⟩
          · exact .inl (List.mem_cons_of_mem _ h)
      · simp only [List.mem_cons] at h
        rcases h with h | h
        · simp [h]
        · rcases ih h with h | h
          · simp [h]
          · exact .inr h

/-- A write keeps the canonical form. -/
theorem Memory.write_wf (m : List Host.Cell) (a : Nat) (v : Byte) (h : Memory.wf m = true) :
    Memory.wf (Memory.write m a v) = true := by
  rw [Memory.wf_iff] at h ⊢
  obtain ⟨h1, h2⟩ := h
  refine ⟨?_, ?_⟩
  · clear h2
    induction m with
    | nil => unfold Memory.write; split <;> simp
    | cons x r ih =>
      obtain ⟨c, b⟩ := x
      simp only [List.pairwise_cons] at h1
      unfold Memory.write
      split
      · split
        · simpa using h1
        · refine List.pairwise_cons.2 ⟨?_, by simpa using h1⟩
          intro e he
          simp only [List.mem_cons] at he
          rcases he with rfl | he
          · assumption
          · exact Nat.lt_trans (by assumption) (h1.1 e he)
      · split
        · split
          · exact h1.2
          · subst_vars; simpa using h1
        · refine List.pairwise_cons.2 ⟨?_, ih h1.2⟩
          intro e he
          rcases Memory.mem_write r a v e he with he | ⟨rfl, -⟩
          · exact h1.1 e he
          · simp only; omega
  · intro e he
    rcases Memory.mem_write m a v e he with he | ⟨rfl, h⟩
    · exact h2 e he
    · exact h

/-- Writing several bytes keeps the canonical form. -/
theorem Memory.writeNat_wf (m : List Host.Cell) (a n v : Nat) (h : Memory.wf m = true) :
    Memory.wf (Memory.writeNat m a n v) = true := by
  induction n generalizing m a v with
  | zero => exact h
  | succ k ih => exact ih _ _ _ (Memory.write_wf m a _ h)

/-- A read after a write: the byte written at its address, and at every other address what was there. -/
theorem Memory.read_write (m : List Host.Cell) (a c : Nat) (v : Byte) (h : Memory.wf m = true) :
    Memory.read (Memory.write m a v) c = if c = a then v else Memory.read m c := by
  rw [Memory.wf_iff] at h
  have h1 := h.1
  clear h
  induction m with
  | nil =>
    unfold Memory.write
    split
    · subst_vars; simp [Memory.read]
    · simp only [Memory.read]
      rcases Nat.lt_trichotomy c a with h | h | h
      · rw [if_neg (by omega), if_pos h, if_neg (by omega)]
      · subst h; simp
      · rw [if_neg (by omega), if_neg (by omega), if_neg (by omega)]
  | cons x r ih =>
    obtain ⟨d, b⟩ := x
    simp only [List.pairwise_cons] at h1
    have below : ∀ k, k ≤ d → Memory.read r k = Memory.empty := fun k hk =>
      Memory.read_below r k fun e he => Nat.lt_of_le_of_lt hk (h1.1 e he)
    unfold Memory.write
    split
    · split
      · subst_vars
        by_cases hc : c = a
        · subst hc; simp only [if_true, Memory.read]; rw [if_neg (by omega), if_pos (by omega)]
        · rw [if_neg hc]
      · simp only [Memory.read]
        rcases Nat.lt_trichotomy c a with h | h | h
        · rw [if_neg (by omega), if_pos h, if_neg (by omega), if_neg (by omega), if_pos (by omega)]
        · subst h; simp
        · rw [if_neg (by omega), if_neg (by omega), if_neg (by omega : ¬c = a)]
    · split
      · subst_vars
        split
        · subst_vars
          simp only [Memory.read]
          rcases Nat.lt_trichotomy c d with h | h | h
          · rw [below c (by omega), if_neg (by omega), if_neg (by omega), if_pos h]
          · subst h; simp [below c (Nat.le_refl c)]
          · rw [if_neg (by omega), if_neg (by omega), if_neg (by omega)]
        · simp only [Memory.read]
          by_cases hc : c = d
          · subst hc; simp
          · rw [if_neg (Ne.symm hc), if_neg hc, if_neg (Ne.symm hc)]
      · simp only [Memory.read]
        by_cases hd : d = c
        · subst hd; rw [if_pos rfl, if_neg (by omega), if_pos rfl]
        · rw [if_neg hd, if_neg hd]
          by_cases hc : c < d
          · rw [if_pos hc, if_neg (by omega), if_pos hc]
          · rw [if_neg hc, if_neg hc, ih h1.2]

/-- A byte outside the bytes written reads as before. -/
theorem Memory.read_writeNat_other (m : List Host.Cell) (a n v c : Nat) (h : Memory.wf m = true)
    (hc : c < a ∨ a + n ≤ c) : Memory.read (Memory.writeNat m a n v) c = Memory.read m c := by
  induction n generalizing m a v with
  | zero => rfl
  | succ k ih =>
    have := ih (Memory.write m a (BitVec.ofNat 8 v)) (a + 1) (v / 256) (Memory.write_wf m a _ h) (by omega)
    rw [Memory.writeNat, this, Memory.read_write _ _ _ _ h, if_neg (by omega)]

/-- A byte among the bytes written reads as its part of the number. -/
theorem Memory.read_writeNat_same (m : List Host.Cell) (a n v k : Nat) (h : Memory.wf m = true) (hk : k < n) :
    Memory.read (Memory.writeNat m a n v) (a + k) = BitVec.ofNat 8 (v / 256 ^ k) := by
  induction n generalizing m a v k with
  | zero => omega
  | succ j ih =>
    rw [Memory.writeNat]
    have hw := Memory.write_wf m a (BitVec.ofNat 8 v) h
    cases k with
    | zero => rw [Memory.read_writeNat_other _ _ _ _ _ hw (by omega), Memory.read_write _ _ _ _ h]; simp
    | succ k =>
      have := ih (Memory.write m a (BitVec.ofNat 8 v)) (a + 1) (v / 256) k hw (by omega)
      rw [show a + (k + 1) = a + 1 + k by omega, this, Nat.pow_succ, Nat.mul_comm, Nat.div_div_eq_div_mul]

/-- Reading back what was written gives the low bytes of the number. -/
theorem Memory.readNat_writeNat (m : List Host.Cell) (a n v : Nat) (h : Memory.wf m = true) :
    Memory.readNat (Memory.writeNat m a n v) a n = v % 256 ^ n := by
  have key : ∀ k ≤ n, ∀ j, j + k = n → Memory.readNat (Memory.writeNat m a n v) (a + j) k = v / 256 ^ j % 256 ^ k := by
    intro k
    induction k with
    | zero => intro _ j _; simp [Memory.readNat, Nat.mod_one]
    | succ k ih =>
      intro hk j hj
      rw [Memory.readNat, Memory.read_writeNat_same _ _ _ _ _ h (by omega), show a + j + 1 = a + (j + 1) by omega,
        ih (by omega) (j + 1) (by omega), BitVec.toNat_ofNat, Nat.pow_succ 256 j, ← Nat.div_div_eq_div_mul,
        Nat.pow_succ 256 k, Nat.mul_comm (256 ^ k), Nat.mod_mul]
  have := key n (Nat.le_refl n) 0 (by omega)
  simpa using this

/-- Bytes of which none is written read as before, as a number. -/
theorem Memory.readNat_writeNat_other (m : List Host.Cell) (a n v c k : Nat) (h : Memory.wf m = true)
    (hc : c + k ≤ a ∨ a + n ≤ c) : Memory.readNat (Memory.writeNat m a n v) c k = Memory.readNat m c k := by
  induction k generalizing c with
  | zero => rfl
  | succ k ih => rw [Memory.readNat, Memory.readNat, ih (c + 1) (by omega), Memory.read_writeNat_other _ _ _ _ _ h (by omega)]

theorem State.wr_wf (s : State) (a n v : Nat) (h : Memory.wf s.mem = true) : Memory.wf (s.wr a n v).mem = true :=
  Memory.writeNat_wf _ _ _ _ h

end Sys2Proof.Machine
end

