-- ==== Sys2Proof/Laws/Ops.lean ====
section
/-! SUPPORT. What the shared operations do, said once: tables, records, registers, the execution of a word, its retirement,
and the taking of a fault. -/

namespace Sys2Proof.Machine

/-! ### Tables -/

@[simp] theorem tabGet_tabPut_self {α : Type} (t : Tab α) (k : Nat) (v : α) : tabGet (tabPut t k v) k = some v := by
  induction t with
  | nil => simp [tabPut, tabGet]
  | cons x r ih =>
    obtain ⟨j, w⟩ := x
    unfold tabPut
    split
    · simp [tabGet]
    · split
      · simp [tabGet]
      · simp only [tabGet]; rw [if_neg (by omega), ih]

theorem tabGet_tabPut_ne {α : Type} (t : Tab α) (k i : Nat) (v : α) (h : i ≠ k) : tabGet (tabPut t k v) i = tabGet t i := by
  induction t with
  | nil => simp [tabPut, tabGet, h.symm]
  | cons x r ih =>
    obtain ⟨j, w⟩ := x
    unfold tabPut
    split
    · simp [tabGet, h.symm]
    · split
      · subst_vars; simp [tabGet, h.symm]
      · simp only [tabGet, ih]

@[simp] theorem State.strand_setStrand (s : State) (u : Nat) (m : Strand) : (s.setStrand u m).strand u = some m :=
  tabGet_tabPut_self _ _ _

theorem State.strand_setStrand_ne (s : State) (u v : Nat) (m : Strand) (h : v ≠ u) : (s.setStrand u m).strand v = s.strand v :=
  tabGet_tabPut_ne _ _ _ _ h

/-- Changing a strand that exists puts its changed record. -/
theorem State.upd_eq (s : State) (u : Nat) (m : Strand) (f : Strand → Strand) (h : s.strand u = some m) :
    s.upd u f = s.setStrand u (f m) := by
  simp [State.upd, h]

/-- The word's retirement on a strand that exists. -/
theorem State.done_eq (s : State) (u : Nat) (t : Stream) (m : Strand) (h : s.strand u = some m) :
    s.done u t = s.setStrand u (m.retire t) := State.upd_eq s u m _ h

/-! ### General registers -/

@[simp] theorem Strand.reg_zero (m : Strand) : m.reg 0 = 0 := rfl

@[simp] theorem Strand.setReg_zero (m : Strand) (v : Word) : m.setReg 0 v = m := rfl

theorem Strand.reg_setReg_self (m : Strand) (i : Field) (v : Word) (h : i ≠ 0) : (m.setReg i v).reg i = v := by
  unfold Strand.reg Strand.setReg
  rw [if_neg h, if_neg h]
  simp

theorem Strand.reg_setReg_ne (m : Strand) (i j : Field) (v : Word) (h : j ≠ i) : (m.setReg i v).reg j = m.reg j := by
  unfold Strand.reg Strand.setReg
  split
  · rfl
  · split
    · rfl
    · have : i.toNat ≠ j.toNat := fun e => h (BitVec.eq_of_toNat_eq e.symm)
      simp [this]

/-! ### Retirement -/

@[simp] theorem Strand.stream_setStream (m : Strand) (t : Stream) (v : StreamSt) : (m.setStream t v).stream t = v := by
  cases t <;> rfl

/-- After a word has retired its stream has passed it. -/
@[simp] theorem Strand.retire_stream (m : Strand) (t : Stream) : (m.retire t).stream t = (m.stream t).advance := by
  cases t <;> rfl

/-- The other streams stay where they are. -/
theorem Strand.retire_stream_ne (m : Strand) (t k : Stream) (h : k ≠ t) : (m.retire t).stream k = m.stream k := by
  cases t <;> cases k <;> first | rfl | exact absurd rfl h

/-- Retirement changes nothing of a strand beside its streams, its walk and its outcomes. -/
theorem Strand.retire_same (m : Strand) (t : Stream) : SameBeside m (m.retire t) ∧ (m.retire t).g = m.g := by
  cases t <;> exact ⟨by repeat' first | rfl | apply And.intro, rfl⟩

/-! ### Executing a word -/

theorem Strand.canIssue_place (m : Strand) (h : m.canIssue = true) : m.place.isNone = false := by
  unfold Strand.canIssue at h
  cases hp : m.place <;> simp_all

/-- A strand that can issue runs, and no fault of it is noted. -/
theorem Strand.canIssue_noted (m : Strand) (h : m.canIssue = true) : m.noted.isEmpty = true := by
  simp only [Strand.canIssue, Bool.and_eq_true] at h
  exact h.2

/-- A strand that can issue may run the word of every stream. -/
theorem Strand.canIssue_mayRun (m : Strand) (t : Stream) (h : m.canIssue = true) : m.mayRun t = true := by
  simp [Strand.mayRun, h]

/-- A word that no check stops comes to its own entry. -/
theorem onWord_ready (s : State) (t : Stream) (barred priv : Bool) (body : Nat → Strand → State) (u : Nat) (m : Strand)
    (h : Ready s u m) (hb : barred = true → (m.stream t).delay = 0) (hp : priv = true → m.priv = true) :
    onWord s t barred priv body = .next (body u m) := by
  obtain ⟨hc, hs, hi⟩ := h
  obtain ⟨⟨v, k⟩, hv, rfl⟩ := Option.map_eq_some_iff.1 hc
  simp only at hs
  have hn := Strand.canIssue_place m hi
  have hr := Strand.canIssue_mayRun m t hi
  have hq := Strand.canIssue_noted m hi
  unfold onWord
  simp only [hv, hs, hn, hr, hq]
  cases barred <;> cases priv <;> simp_all

/-- What executing a word can come to: no strand, nothing, SLOT, PRIV, or the word's own entry, after which a stop that
has waited for the word takes place. -/
theorem onWord_cases (s : State) (t : Stream) (barred priv : Bool) (body : Nat → Strand → State) :
    onWord s t barred priv body = .fault .noStrand ∨
    ∃ u m, s.cur.map (·.1) = some u ∧ s.strand u = some m ∧ m.place.isSome = true ∧
      ((m.mayRun t = false ∧ onWord s t barred priv body = .next s) ∨
       (m.mayRun t = true ∧ barred = true ∧ (m.stream t).delay ≠ 0 ∧
          onWord s t barred priv body = .next (s.raise u t cSLOT 0 0)) ∨
       (m.mayRun t = true ∧ priv = true ∧ m.priv = false ∧ onWord s t barred priv body = .next (s.raise u t cPRIV 0 0)) ∨
       (m.mayRun t = true ∧ m.noted.isEmpty = true ∧ onWord s t barred priv body = .next (body u m)) ∨
       (m.mayRun t = true ∧ m.noted.isEmpty = false ∧
          onWord s t barred priv body = .next ((body u m).takeFault u))) := by
  unfold onWord
  cases hc : s.cur with
  | none => simp
  | some c =>
    obtain ⟨u, k⟩ := c
    cases hs : s.strand u with
    | none => simp [hs]
    | some m =>
      simp only [hs]
      cases hp : m.place with
      | none => simp
      | some l =>
        right
        refine ⟨u, m, rfl, hs, by simp [hp], ?_⟩
        cases hi : m.mayRun t with
        | false => simp
        | true =>
          simp only [Option.isNone_some, Bool.not_true, Bool.false_eq_true, if_false]
          split
          · simp_all
          · split
            · simp_all
            · cases hn : m.noted.isEmpty <;> simp

/-- A word that only changes its strand. -/
theorem onReg_ready (s : State) (t : Stream) (f : Strand → Strand) (u : Nat) (m : Strand) (h : Ready s u m) :
    onReg s t f = .next (s.setStrand u ((f m).retire t)) :=
  onWord_ready s t false false _ u m h (by simp) (by simp)

/-! ### Taking a fault -/

/-- What taking a fault can come to: nothing while words are in flight or the strand has stopped already, or the frame,
the stop and one event. -/
theorem State.takeFault_cases (s : State) (u : Nat) :
    s.takeFault u = s ∨ ∃ m n loc ord, s.strand u = some m ∧ m.recorded = some n ∧ m.place = some loc ∧ m.busy = false ∧
      m.state ≠ .faulted ∧ m.state ≠ .ended ∧ s.takeFault u = (((s.setStrand u (m.stopped n (s.ownedMask u false))).dropArray u).event m.rank
        (evPayload 0x01 (n.cause.toNat * 256 + loc * 65536) ord)) := by
  unfold State.takeFault
  cases hs : s.strand u with
  | none => simp
  | some m =>
    simp only
    cases hn : m.recorded with
    | none => simp
    | some n => cases hp : m.place with
      | none => simp
      | some loc =>
        simp only
        split
        · exact .inl rfl
        · rename_i h
          simp only [Bool.or_eq_true, decide_eq_true_eq, not_or, Bool.not_eq_true] at h
          exact .inr ⟨m, n, loc, _, rfl, hn, hp, h.1.1, h.1.2, h.2, rfl⟩

/-! ### Messages, attempts and commands -/

/-- A message is appended, and nothing but the messages and the next number changes. -/
theorem State.sendOn_frame (s : State) (src dst : DieKey) (route : Nat) (fwd : Bool) (body : Body) :
    ∃ q, q.id = s.ids ∧ q.src = src ∧ q.dst = dst ∧ q.body = body ∧ q.forwarded = fwd ∧
      s.sendOn src dst route fwd body = { s with msgs := s.msgs ++ [q], ids := s.ids + 1 } :=
  ⟨_, rfl, rfl, rfl, rfl, rfl, rfl⟩

@[simp] theorem State.sendOn_mem (s : State) (src dst : DieKey) (route : Nat) (fwd : Bool) (body : Body) :
    (s.sendOn src dst route fwd body).mem = s.mem := rfl

@[simp] theorem State.sendOn_strands (s : State) (src dst : DieKey) (route : Nat) (fwd : Bool) (body : Body) :
    (s.sendOn src dst route fwd body).strands = s.strands := rfl

@[simp] theorem State.attempt_ok (s x : State) : s.attempt (.ok x) = x := rfl

@[simp] theorem State.attempt_error (s x : State) : s.attempt (.error x) = s.asksOf x := rfl

/-- What a failed attempt leaves but for the sweeps and snapshots that it has asked for a page: memory and strands, for two. -/
@[simp] theorem State.asksOf_mem (s x : State) : (s.asksOf x).mem = s.mem := rfl

@[simp] theorem State.asksOf_strands (s x : State) : (s.asksOf x).strands = s.strands := rfl

/-- A command goes on as its strand's, with the die map of its own word (R205, R370). -/
theorem State.cmdAt_cases (s : State) (u : Nat) (k : Cmd) (n : Strand) (c : Client) (k1 : Cmd) (h : s.cmdAt u k = some (n, c, k1)) :
    s.strand u = some n ∧ (∃ c0, s.clientOf n = some c0 ∧ c = { c0 with dmap := k.dmap }) ∧
      k1 = s.startCmd n (locCore (n.place.getD 0)) k := by
  unfold State.cmdAt at h
  split at h
  · cases h
  · rename_i m hm
    obtain ⟨c0, hc, e⟩ := Option.map_eq_some_iff.mp h
    cases e
    exact ⟨hm, ⟨c0, hc, rfl⟩, rfl⟩

/-- The change of a counter, where it is made, writes the 16 bytes at the counter's place and nothing else. -/
theorem State.counterUpd_ok (s t : State) (c : Client) (va : Word) (f : Arrival → Arrival) (h : s.counterUpd c va f = .ok t) :
    ∃ a, s.scratch c va = .ok a ∧ t = s.wr a 16 (f (arrivalOf (s.rd a 16))).toNat := by
  unfold State.counterUpd at h
  split at h
  · cases h
  · cases h
  · rename_i a ha
    cases h
    exact ⟨a, ha, rfl⟩

end Sys2Proof.Machine
end

