-- ==== Sys2Proof/Laws/Dispatch.lean ====
section
/-! SUPPORT. The meaning that each instruction runs: one lemma for each arm of `exec`. -/

namespace Sys2Proof.Machine

variable (s : State)

@[simp] theorem exec_add (d : Field) (a : Field) (b : Field) : exec (.add d a b) s = execAdd d a b s := rfl
@[simp] theorem exec_sub (d : Field) (a : Field) (b : Field) : exec (.sub d a b) s = execSub d a b s := rfl
@[simp] theorem exec_mul (d : Field) (a : Field) (b : Field) : exec (.mul d a b) s = execMul d a b s := rfl
@[simp] theorem exec_mulh (d : Field) (a : Field) (b : Field) : exec (.mulh d a b) s = execMulh d a b s := rfl
@[simp] theorem exec_mulhu (d : Field) (a : Field) (b : Field) : exec (.mulhu d a b) s = execMulhu d a b s := rfl
@[simp] theorem exec_div (d : Field) (a : Field) (b : Field) : exec (.div d a b) s = execDiv d a b s := rfl
@[simp] theorem exec_divu (d : Field) (a : Field) (b : Field) : exec (.divu d a b) s = execDivu d a b s := rfl
@[simp] theorem exec_rem (d : Field) (a : Field) (b : Field) : exec (.rem d a b) s = execRem d a b s := rfl
@[simp] theorem exec_remu (d : Field) (a : Field) (b : Field) : exec (.remu d a b) s = execRemu d a b s := rfl
@[simp] theorem exec_and (d : Field) (a : Field) (b : Field) : exec (.and d a b) s = execAnd d a b s := rfl
@[simp] theorem exec_or (d : Field) (a : Field) (b : Field) : exec (.or d a b) s = execOr d a b s := rfl
@[simp] theorem exec_xor (d : Field) (a : Field) (b : Field) : exec (.xor d a b) s = execXor d a b s := rfl
@[simp] theorem exec_shl (d : Field) (a : Field) (b : Field) : exec (.shl d a b) s = execShl d a b s := rfl
@[simp] theorem exec_shr (d : Field) (a : Field) (b : Field) : exec (.shr d a b) s = execShr d a b s := rfl
@[simp] theorem exec_sra (d : Field) (a : Field) (b : Field) : exec (.sra d a b) s = execSra d a b s := rfl
@[simp] theorem exec_slt (d : Field) (a : Field) (b : Field) : exec (.slt d a b) s = execSlt d a b s := rfl
@[simp] theorem exec_sltu (d : Field) (a : Field) (b : Field) : exec (.sltu d a b) s = execSltu d a b s := rfl
@[simp] theorem exec_min (d : Field) (a : Field) (b : Field) : exec (.min d a b) s = execMin d a b s := rfl
@[simp] theorem exec_max (d : Field) (a : Field) (b : Field) : exec (.max d a b) s = execMax d a b s := rfl
@[simp] theorem exec_minu (d : Field) (a : Field) (b : Field) : exec (.minu d a b) s = execMinu d a b s := rfl
@[simp] theorem exec_maxu (d : Field) (a : Field) (b : Field) : exec (.maxu d a b) s = execMaxu d a b s := rfl
@[simp] theorem exec_sel (d : Field) (a : Field) (b : Field) : exec (.sel d a b) s = execSel d a b s := rfl
@[simp] theorem exec_clz (d : Field) (a : Field) : exec (.clz d a) s = execClz d a s := rfl
@[simp] theorem exec_popc (d : Field) (a : Field) : exec (.popc d a) s = execPopc d a s := rfl
@[simp] theorem exec_shli (d : Field) (a : Field) (b : Field) : exec (.shli d a b) s = execShli d a b s := rfl
@[simp] theorem exec_shri (d : Field) (a : Field) (b : Field) : exec (.shri d a b) s = execShri d a b s := rfl
@[simp] theorem exec_srai (d : Field) (a : Field) (b : Field) : exec (.srai d a b) s = execSrai d a b s := rfl
@[simp] theorem exec_addi (d : Field) (a : Field) (imm : BitVec 12) : exec (.addi d a imm) s = execAddi d a imm s := rfl
@[simp] theorem exec_andi (d : Field) (a : Field) (imm : BitVec 12) : exec (.andi d a imm) s = execAndi d a imm s := rfl
@[simp] theorem exec_ori (d : Field) (a : Field) (imm : BitVec 12) : exec (.ori d a imm) s = execOri d a imm s := rfl
@[simp] theorem exec_xori (d : Field) (a : Field) (imm : BitVec 12) : exec (.xori d a imm) s = execXori d a imm s := rfl
@[simp] theorem exec_slti (d : Field) (a : Field) (imm : BitVec 12) : exec (.slti d a imm) s = execSlti d a imm s := rfl
@[simp] theorem exec_bfx (d : Field) (a : Field) (l : Field) (p : Field) : exec (.bfx d a l p) s = execBfx d a l p s := rfl
@[simp] theorem exec_bfi (d : Field) (a : Field) (l : Field) (p : Field) : exec (.bfi d a l p) s = execBfi d a l p s := rfl
@[simp] theorem exec_li (d : Field) (imm : BitVec 18) : exec (.li d imm) s = execLi d imm s := rfl
@[simp] theorem exec_lih (imm : BitVec 24) : exec (.lih imm) s = execLih imm s := rfl
@[simp] theorem exec_b (o : BitVec 24) : exec (.b o) s = execB o s := rfl
@[simp] theorem exec_call (o : BitVec 24) : exec (.call o) s = execCall o s := rfl
@[simp] theorem exec_jr (a : Field) : exec (.jr a) s = execJr a s := rfl
@[simp] theorem exec_loop (a : Field) (o : BitVec 12) : exec (.loop a o) s = execLoop a o s := rfl
@[simp] theorem exec_beq (a : Field) (b : Field) (o : BitVec 12) : exec (.beq a b o) s = execBeq a b o s := rfl
@[simp] theorem exec_bne (a : Field) (b : Field) (o : BitVec 12) : exec (.bne a b o) s = execBne a b o s := rfl
@[simp] theorem exec_blt (a : Field) (b : Field) (o : BitVec 12) : exec (.blt a b o) s = execBlt a b o s := rfl
@[simp] theorem exec_bge (a : Field) (b : Field) (o : BitVec 12) : exec (.bge a b o) s = execBge a b o s := rfl
@[simp] theorem exec_bltu (a : Field) (b : Field) (o : BitVec 12) : exec (.bltu a b o) s = execBltu a b o s := rfl
@[simp] theorem exec_bgeu (a : Field) (b : Field) (o : BitVec 12) : exec (.bgeu a b o) s = execBgeu a b o s := rfl
@[simp] theorem exec_csrR (d : Field) (c : BitVec 12) : exec (.csrR d c) s = execCsrR d c s := rfl
@[simp] theorem exec_csrW (d : Field) (a : Field) (c : BitVec 12) : exec (.csrW d a c) s = execCsrW d a c s := rfl
@[simp] theorem exec_csrS (d : Field) (a : Field) (c : BitVec 12) : exec (.csrS d a c) s = execCsrS d a c s := rfl
@[simp] theorem exec_csrC (d : Field) (a : Field) (c : BitVec 12) : exec (.csrC d a c) s = execCsrC d a c s := rfl
@[simp] theorem exec_tcfg (n : Field) (a : Field) : exec (.tcfg n a) s = execTcfg n a s := rfl
@[simp] theorem exec_rng (d : Field) (a : Field) (b : Field) : exec (.rng d a b) s = execRng d a b s := rfl
@[simp] theorem exec_rngRs (d : Field) (a : Field) (b : Field) : exec (.rngRs d a b) s = execRngRs d a b s := rfl
@[simp] theorem exec_trap (c : BitVec 24) : exec (.trap c) s = execTrap c s := rfl
@[simp] theorem exec_sys (c : BitVec 24) : exec (.sys c) s = execSys c s := rfl
@[simp] theorem exec_enq (d : Field) (q : Field) (n : BitVec 2) : exec (.enq d q n) s = execEnq d q n s := rfl
@[simp] theorem exec_lds (d : Field) (a : Field) (sz : BitVec 2) (o : BitVec 10) : exec (.lds d a sz o) s = execLds d a sz o s := rfl
@[simp] theorem exec_sts (d : Field) (a : Field) (sz : BitVec 2) (o : BitVec 10) : exec (.sts d a sz o) s = execSts d a sz o s := rfl
@[simp] theorem exec_ldg (d : Field) (a : Field) (sz : BitVec 2) (o : BitVec 10) : exec (.ldg d a sz o) s = execLdg d a sz o s := rfl
@[simp] theorem exec_stg (d : Field) (a : Field) (sz : BitVec 2) (o : BitVec 10) : exec (.stg d a sz o) s = execStg d a sz o s := rfl
@[simp] theorem exec_ldgAcq (d : Field) (a : Field) (o : BitVec 10) : exec (.ldgAcq d a o) s = execLdgAcq d a o s := rfl
@[simp] theorem exec_stgRel (d : Field) (a : Field) (o : BitVec 10) : exec (.stgRel d a o) s = execStgRel d a o s := rfl
@[simp] theorem exec_ldfK (d : Field) (a : Field) (sz : BitVec 2) (o : BitVec 10) : exec (.ldfK d a sz o) s = execLdfK d a sz o s := rfl
@[simp] theorem exec_ldfC (d : Field) (a : Field) (sz : BitVec 2) (o : BitVec 10) : exec (.ldfC d a sz o) s = execLdfC d a sz o s := rfl
@[simp] theorem exec_waitfK (p : Field) (q : Field) : exec (.waitfK p q) s = execWaitfK p q s := rfl
@[simp] theorem exec_waitfC (p : Field) (q : Field) : exec (.waitfC p q) s = execWaitfC p q s := rfl
@[simp] theorem exec_amo (d : Field) (a : Field) (b : Field) (u : Bool) (w : Bool) (o : BitVec 3) : exec (.amo d a b u w o) s = execAmo d a b u w o s := rfl
@[simp] theorem exec_cas (d : Field) (a : Field) (b : Field) (w : Bool) : exec (.cas d a b w) s = execCas d a b w s := rfl
@[simp] theorem exec_acq (p : Field) : exec (.acq p) s = execAcq p s := rfl
@[simp] theorem exec_acqSh (p : Field) : exec (.acqSh p) s = execAcqSh p s := rfl
@[simp] theorem exec_rel (p : Field) : exec (.rel p) s = execRel p s := rfl
@[simp] theorem exec_bind (p : Field) (q : Field) (r : Field) (e : Field) : exec (.bind p q r e) s = execBind p q r e s := rfl
@[simp] theorem exec_lend (d : Field) (q : Field) : exec (.lend d q) s = execLend d q s := rfl
@[simp] theorem exec_reclaim (d : Field) (q : Field) : exec (.reclaim d q) s = execReclaim d q s := rfl
@[simp] theorem exec_tlbi (p : Field) : exec (.tlbi p) s = execTlbi p s := rfl
@[simp] theorem exec_tlbiSp (p : Field) : exec (.tlbiSp p) s = execTlbiSp p s := rfl
@[simp] theorem exec_pgsplit (d : Field) (a : Field) : exec (.pgsplit d a) s = execPgsplit d a s := rfl
@[simp] theorem exec_pgcoll (d : Field) (a : Field) (b : Field) : exec (.pgcoll d a b) s = execPgcoll d a b s := rfl
@[simp] theorem exec_pgmig (d : Field) (a : Field) (b : Field) : exec (.pgmig d a b) s = execPgmig d a b s := rfl
@[simp] theorem exec_pageProcedureDone (loc : Loc) : exec (.pageProcedureDone loc) s = execPageProcedureDone loc s := rfl
@[simp] theorem exec_nop (t : Stream) : exec (.nop t) s = execNop t s := rfl
@[simp] theorem exec_fence (t : Stream) (f : Field) : exec (.fence t f) s = execFence t f s := rfl
@[simp] theorem exec_sigk (t : Stream) (k : BitVec 4) (n : BitVec 16) : exec (.sigk t k n) s = execSigk t k n s := rfl
@[simp] theorem exec_waitk (t : Stream) (k : BitVec 4) (n : BitVec 16) : exec (.waitk t k n) s = execWaitk t k n s := rfl
@[simp] theorem exec_arinit (t : Stream) (p : Field) (q : Field) (x : Bool) : exec (.arinit t p q x) s = execArinit t p q x s := rfl
@[simp] theorem exec_arwait (t : Stream) (p : Field) (x : Bool) (h : Bool) : exec (.arwait t p x h) s = execArwait t p x h s := rfl
@[simp] theorem exec_fset (t : Stream) (p : Field) (q : Field) (x : Bool) : exec (.fset t p q x) s = execFset t p q x s := rfl
@[simp] theorem exec_fclr (t : Stream) (p : Field) (q : Field) (x : Bool) : exec (.fclr t p q x) s = execFclr t p q x s := rfl
@[simp] theorem exec_tld (n : Field) (b : Field) (o : BitVec 12) : exec (.tld n b o) s = execTld n b o s := rfl
@[simp] theorem exec_tldt (n : Field) (b : Field) (o : BitVec 12) : exec (.tldt n b o) s = execTldt n b o s := rfl
@[simp] theorem exec_tldk (n : Field) (b : Field) (o : BitVec 12) : exec (.tldk n b o) s = execTldk n b o s := rfl
@[simp] theorem exec_cbld (b : Field) (o : BitVec 12) : exec (.cbld b o) s = execCbld b o s := rfl
@[simp] theorem exec_gather (p : Field) (q : Field) (r : Field) (x : Bool) (l : BitVec 2) : exec (.gather p q r x l) s = execGather p q r x l s := rfl
@[simp] theorem exec_gred (p : Field) (q : Field) (r : Field) (x : Bool) (l : BitVec 2) (f : Bool) (o : Bool) : exec (.gred p q r x l f o) s = execGred p q r x l f o s := rfl
@[simp] theorem exec_cpy (sz : Bool) (p : Field) (q : Field) (r : Field) (x : Bool) : exec (.cpy sz p q r x) s = execCpy sz p q r x s := rfl
@[simp] theorem exec_cpyt (sz : Bool) (p : Field) (q : Field) (r : Field) (x : Bool) : exec (.cpyt sz p q r x) s = execCpyt sz p q r x s := rfl
@[simp] theorem exec_tmov (sz : Bool) (p : Field) (q : Field) (x : Bool) : exec (.tmov sz p q x) s = execTmov sz p q x s := rfl
@[simp] theorem exec_vadd (d : Field) (a : Field) (b : Field) (r : BitVec 3) : exec (.vadd d a b r) s = execVadd d a b r s := rfl
@[simp] theorem exec_vsub (d : Field) (a : Field) (b : Field) (r : BitVec 3) : exec (.vsub d a b r) s = execVsub d a b r s := rfl
@[simp] theorem exec_vmul (d : Field) (a : Field) (b : Field) (r : BitVec 3) : exec (.vmul d a b r) s = execVmul d a b r s := rfl
@[simp] theorem exec_vfma (d : Field) (a : Field) (b : Field) (r : BitVec 3) : exec (.vfma d a b r) s = execVfma d a b r s := rfl
@[simp] theorem exec_vfms (d : Field) (a : Field) (b : Field) (r : BitVec 3) : exec (.vfms d a b r) s = execVfms d a b r s := rfl
@[simp] theorem exec_vfnma (d : Field) (a : Field) (b : Field) (r : BitVec 3) : exec (.vfnma d a b r) s = execVfnma d a b r s := rfl
@[simp] theorem exec_vmin (d : Field) (a : Field) (b : Field) (u : Bool) (q : Bool) : exec (.vmin d a b u q) s = execVmin d a b u q s := rfl
@[simp] theorem exec_vmax (d : Field) (a : Field) (b : Field) (u : Bool) (q : Bool) : exec (.vmax d a b u q) s = execVmax d a b u q s := rfl
@[simp] theorem exec_vabs (d : Field) (a : Field) : exec (.vabs d a) s = execVabs d a s := rfl
@[simp] theorem exec_vneg (d : Field) (a : Field) : exec (.vneg d a) s = execVneg d a s := rfl
@[simp] theorem exec_vcmp (d : Field) (a : Field) (b : Field) (u : Bool) (c : BitVec 3) : exec (.vcmp d a b u c) s = execVcmp d a b u c s := rfl
@[simp] theorem exec_vsel (d : Field) (a : Field) (b : Field) : exec (.vsel d a b) s = execVsel d a b s := rfl
@[simp] theorem exec_vcvt (d : Field) (a : Field) (r : BitVec 3) : exec (.vcvt d a r) s = execVcvt d a r s := rfl
@[simp] theorem exec_viadd (d : Field) (a : Field) (b : Field) (sz : Bool) : exec (.viadd d a b sz) s = execViadd d a b sz s := rfl
@[simp] theorem exec_visub (d : Field) (a : Field) (b : Field) (sz : Bool) : exec (.visub d a b sz) s = execVisub d a b sz s := rfl
@[simp] theorem exec_vimul (d : Field) (a : Field) (b : Field) (sz : Bool) : exec (.vimul d a b sz) s = execVimul d a b sz s := rfl
@[simp] theorem exec_vand (d : Field) (a : Field) (b : Field) : exec (.vand d a b) s = execVand d a b s := rfl
@[simp] theorem exec_vor (d : Field) (a : Field) (b : Field) : exec (.vor d a b) s = execVor d a b s := rfl
@[simp] theorem exec_vxor (d : Field) (a : Field) (b : Field) : exec (.vxor d a b) s = execVxor d a b s := rfl
@[simp] theorem exec_vnot (d : Field) (a : Field) : exec (.vnot d a) s = execVnot d a s := rfl
@[simp] theorem exec_vshl (d : Field) (a : Field) (b : Field) (imm : Bool) : exec (.vshl d a b imm) s = execVshl d a b imm s := rfl
@[simp] theorem exec_vshr (d : Field) (a : Field) (b : Field) (imm : Bool) : exec (.vshr d a b imm) s = execVshr d a b imm s := rfl
@[simp] theorem exec_vsra (d : Field) (a : Field) (b : Field) (imm : Bool) : exec (.vsra d a b imm) s = execVsra d a b imm s := rfl
@[simp] theorem exec_vmov (d : Field) (a : Field) : exec (.vmov d a) s = execVmov d a s := rfl
@[simp] theorem exec_vmovG (d : Field) (a : Field) : exec (.vmovG d a) s = execVmovG d a s := rfl
@[simp] theorem exec_vbcr (d : Field) (a : Field) (c : Field) : exec (.vbcr d a c) s = execVbcr d a c s := rfl
@[simp] theorem exec_vbcc (d : Field) (a : Field) (r : BitVec 4) : exec (.vbcc d a r) s = execVbcc d a r s := rfl
@[simp] theorem exec_vrotr (d : Field) (a : Field) (sz : Field) : exec (.vrotr d a sz) s = execVrotr d a sz s := rfl
@[simp] theorem exec_vrotc (d : Field) (a : Field) (sz : BitVec 4) : exec (.vrotc d a sz) s = execVrotc d a sz s := rfl
@[simp] theorem exec_vredr (d : Field) (a : Field) (o : BitVec 2) (r : BitVec 3) : exec (.vredr d a o r) s = execVredr d a o r s := rfl
@[simp] theorem exec_vredc (d : Field) (a : Field) (o : BitVec 2) (r : BitVec 3) : exec (.vredc d a o r) s = execVredc d a o r s := rfl
@[simp] theorem exec_vscanr (d : Field) (a : Field) (x : Bool) (o : BitVec 2) (r : BitVec 3) : exec (.vscanr d a x o r) s = execVscanr d a x o r s := rfl
@[simp] theorem exec_vscanc (d : Field) (a : Field) (x : Bool) (o : BitVec 2) (r : BitVec 3) : exec (.vscanc d a x o r) s = execVscanc d a x o r s := rfl
@[simp] theorem exec_viota (d : Field) (a : Field) : exec (.viota d a) s = execViota d a s := rfl
@[simp] theorem exec_vrng (d : Field) (a : Field) (b : Field) (sz : Bool) (f : BitVec 2) : exec (.vrng d a b sz f) s = execVrng d a b sz f s := rfl
@[simp] theorem exec_vcor (d : Field) (a : Field) (imm : BitVec 5) (f : BitVec 3) : exec (.vcor d a imm f) s = execVcor d a imm f s := rfl
@[simp] theorem exec_vdkadd (d : Field) (a : Field) (b : Field) : exec (.vdkadd d a b) s = execVdkadd d a b s := rfl
@[simp] theorem exec_vdkapp (d : Field) (a : Field) : exec (.vdkapp d a) s = execVdkapp d a s := rfl
@[simp] theorem exec_mpush (a : Field) : exec (.mpush a) s = execMpush a s := rfl
@[simp] theorem exec_mpushNew (a : Field) : exec (.mpushNew a) s = execMpushNew a s := rfl
@[simp] theorem exec_bmz (o : BitVec 12) : exec (.bmz o) s = execBmz o s := rfl
@[simp] theorem exec_mma (d : Field) (a : Field) (b : Field) : exec (.mma d a b) s = execMma d a b s := rfl
@[simp] theorem exec_mmag (p : Field) (q : Field) (r : Field) : exec (.mmag p q r) s = execMmag p q r s := rfl
@[simp] theorem exec_aalloc (d : Field) (a : Field) : exec (.aalloc d a) s = execAalloc d a s := rfl
@[simp] theorem exec_afree (d : Field) (a : Field) : exec (.afree d a) s = execAfree d a s := rfl
@[simp] theorem exec_azero (d : Field) (a : Field) : exec (.azero d a) s = execAzero d a s := rfl
@[simp] theorem exec_aadd (d : Field) (a : Field) : exec (.aadd d a) s = execAadd d a s := rfl
@[simp] theorem exec_adrain (p : Field) (q : Field) : exec (.adrain p q) s = execAdrain p q s := rfl
@[simp] theorem exec_tunpk (d : Field) (a : Field) (r : BitVec 3) : exec (.tunpk d a r) s = execTunpk d a r s := rfl
@[simp] theorem exec_tst (n : Field) (b : Field) (o : BitVec 12) : exec (.tst n b o) s = execTst n b o s := rfl
@[simp] theorem exec_tstk (n : Field) (b : Field) (o : BitVec 12) : exec (.tstk n b o) s = execTstk n b o s := rfl
@[simp] theorem exec_ast (p : Field) (q : Field) (x : Bool) : exec (.ast p q x) s = execAst p q x s := rfl
@[simp] theorem exec_scat (p : Field) (q : Field) (r : Field) (x : Bool) (l : BitVec 2) : exec (.scat p q r x l) s = execScat p q r x l s := rfl
@[simp] theorem exec_scata (p : Field) (q : Field) (r : Field) (x : Bool) (k : BitVec 2) (l : BitVec 2) : exec (.scata p q r x k l) s = execScata p q r x k l s := rfl
@[simp] theorem exec_upd (p : Field) (q : Field) (r : Field) (x : Bool) (f : BitVec 2) (l : BitVec 2) : exec (.upd p q r x f l) s = execUpd p q r x f l s := rfl
@[simp] theorem exec_car (p : Field) (q : Field) (r : Field) (x : Bool) : exec (.car p q r x) s = execCar p q r x s := rfl
@[simp] theorem exec_crs (p : Field) (q : Field) (r : Field) (x : Bool) : exec (.crs p q r x) s = execCrs p q r x s := rfl
@[simp] theorem exec_cag (p : Field) (q : Field) (r : Field) (x : Bool) : exec (.cag p q r x) s = execCag p q r x s := rfl
@[simp] theorem exec_cbc (p : Field) (q : Field) (r : Field) (x : Bool) : exec (.cbc p q r x) s = execCbc p q r x s := rfl
@[simp] theorem exec_waitkSatisfied (loc : Loc) (st : Stream) : exec (.waitkSatisfied loc st) s = execWaitkSatisfied loc st s := rfl
@[simp] theorem exec_sigkRoom (loc : Loc) (st : Stream) : exec (.sigkRoom loc st) s = execSigkRoom loc st s := rfl
@[simp] theorem exec_fullEmptyWaitDone (loc : Loc) (st : Stream) : exec (.fullEmptyWaitDone loc st) s = execFullEmptyWaitDone loc st s := rfl
@[simp] theorem exec_arwaitDone (loc : Loc) (st : Stream) : exec (.arwaitDone loc st) s = execArwaitDone loc st s := rfl
@[simp] theorem exec_gbarEpisodeComplete (gang : Nat) : exec (.gbarEpisodeComplete gang) s = execGbarEpisodeComplete gang s := rfl
@[simp] theorem exec_matrixArrayGrant (core : BitVec 18) : exec (.matrixArrayGrant core) s = execMatrixArrayGrant core s := rfl
@[simp] theorem exec_leaseLapse (loc : Loc) : exec (.leaseLapse loc) s = execLeaseLapse loc s := rfl
@[simp] theorem exec_exitRetire (loc : Loc) : exec (.exitRetire loc) s = execExitRetire loc s := rfl
@[simp] theorem exec_stepBoundary (loc : Loc) : exec (.stepBoundary loc) s = execStepBoundary loc s := rfl
@[simp] theorem exec_bankUnpark (loc : Loc) : exec (.bankUnpark loc) s = execBankUnpark loc s := rfl
@[simp] theorem exec_strandFaultStop (loc : Loc) : exec (.strandFaultStop loc) s = execStrandFaultStop loc s := rfl
@[simp] theorem exec_chunkArrive (loc : Loc) (slot : BitVec 6) (ahead : BitVec 4) : exec (.chunkArrive loc slot ahead) s = execChunkArrive loc slot ahead s := rfl
@[simp] theorem exec_chunkFault (loc : Loc) (slot : BitVec 6) : exec (.chunkFault loc slot) s = execChunkFault loc slot s := rfl
@[simp] theorem exec_astFinish (loc : Loc) : exec (.astFinish loc) s = execAstFinish loc s := rfl
@[simp] theorem exec_commandRelocate (loc : Loc) (slot : BitVec 6) (core : BitVec 3) : exec (.commandRelocate loc slot core) s = execCommandRelocate loc slot core s := rfl
@[simp] theorem exec_nestActivate (rank : Nat) : exec (.nestActivate rank) s = execNestActivate rank s := rfl
@[simp] theorem exec_gangDispatch (rank : Nat) (lp : Nat) : exec (.gangDispatch rank lp) s = execGangDispatch rank lp s := rfl
@[simp] theorem exec_gangResume (rank : Nat) (lp : Nat) : exec (.gangResume rank lp) s = execGangResume rank lp s := rfl
@[simp] theorem exec_gangSwitchOut (rank : Nat) : exec (.gangSwitchOut rank) s = execGangSwitchOut rank s := rfl
@[simp] theorem exec_partitionExchangeDone (rank : Nat) : exec (.partitionExchangeDone rank) s = execPartitionExchangeDone rank s := rfl
@[simp] theorem exec_segmentBind (loc : Loc) (addr : Word) : exec (.segmentBind loc addr) s = execSegmentBind loc addr s := rfl
@[simp] theorem exec_routeEntryLoad (pkg : Pkg) (dest : Pkg) (entry : Word) : exec (.routeEntryLoad pkg dest entry) s = execRouteEntryLoad pkg dest entry s := rfl
@[simp] theorem exec_linkRetry (die : DieKey) (port : BitVec 2) : exec (.linkRetry die port) s = execLinkRetry die port s := rfl
@[simp] theorem exec_hwMigrationDone (die : DieKey) : exec (.hwMigrationDone die) s = execHwMigrationDone die s := rfl
@[simp] theorem exec_pageDemoteDone (die : DieKey) (entry : BitVec 4) : exec (.pageDemoteDone die entry) s = execPageDemoteDone die entry s := rfl
@[simp] theorem exec_reclaimDeadline (die : DieKey) (entry : BitVec 4) : exec (.reclaimDeadline die entry) s = execReclaimDeadline die entry s := rfl
@[simp] theorem exec_packageLost (pkg : Pkg) (lost : Pkg) : exec (.packageLost pkg lost) s = execPackageLost pkg lost s := rfl
@[simp] theorem exec_precopyRound (rank : Nat) : exec (.precopyRound rank) s = execPrecopyRound rank s := rfl
@[simp] theorem exec_sweepPage (rank : Nat) : exec (.sweepPage rank) s = execSweepPage rank s := rfl
@[simp] theorem exec_snapshotPageCopy (rank : Nat) : exec (.snapshotPageCopy rank) s = execSnapshotPageCopy rank s := rfl
@[simp] theorem exec_correctedError (die : DieKey) (counter : BitVec 3) : exec (.correctedError die counter) s = execCorrectedError die counter s := rfl
@[simp] theorem exec_thermalTrip (pkg : Pkg) : exec (.thermalTrip pkg) s = execThermalTrip pkg s := rfl
@[simp] theorem exec_limitEngage (pkg : Pkg) (thermal : Bool) (engaged : Bool) (die : BitVec 2) : exec (.limitEngage pkg thermal engaged die) s = execLimitEngage pkg thermal engaged die s := rfl
@[simp] theorem exec_startStepDone (pkg : Pkg) (cycles : BitVec 40) : exec (.startStepDone pkg cycles) s = execStartStepDone pkg cycles s := rfl
@[simp] theorem exec_startStepFail (pkg : Pkg) (code : BitVec 8) (cycles : BitVec 40) : exec (.startStepFail pkg code cycles) s = execStartStepFail pkg code cycles s := rfl
@[simp] theorem exec_startCold (pkg : Pkg) : exec (.startCold pkg) s = execStartCold pkg s := rfl
@[simp] theorem exec_startWarm (pkg : Pkg) : exec (.startWarm pkg) s = execStartWarm pkg s := rfl
@[simp] theorem exec_stopCold (pkg : Pkg) (kind : BitVec 2) : exec (.stopCold pkg kind) s = execStopCold pkg kind s := rfl
@[simp] theorem exec_stopWarm (pkg : Pkg) : exec (.stopWarm pkg) s = execStopWarm pkg s := rfl
@[simp] theorem exec_sqtailDoorbell (pkg : Pkg) (value : Word) : exec (.sqtailDoorbell pkg value) s = execSqtailDoorbell pkg value s := rfl
@[simp] theorem exec_cqheadAdvance (pkg : Pkg) (value : Word) : exec (.cqheadAdvance pkg value) s = execCqheadAdvance pkg value s := rfl
@[simp] theorem exec_hostRegisterWrite (pkg : Pkg) (off : BitVec 16) (value : Word) : exec (.hostRegisterWrite pkg off value) s = execHostRegisterWrite pkg off value s := rfl
@[simp] theorem exec_i3cWindowRead (pkg : Pkg) (addr : BitVec 48) : exec (.i3cWindowRead pkg addr) s = execI3cWindowRead pkg addr s := rfl
@[simp] theorem exec_i3cLimitWrite (pkg : Pkg) (sel : Word) (value : Word) : exec (.i3cLimitWrite pkg sel value) s = execI3cLimitWrite pkg sel value s := rfl
@[simp] theorem exec_write (pkg : Pkg) (c : Command) : exec (.write pkg c) s = execWrite pkg c s := rfl
@[simp] theorem exec_copyin (pkg : Pkg) (c : Command) : exec (.copyin pkg c) s = execCopyin pkg c s := rfl
@[simp] theorem exec_read (pkg : Pkg) (c : Command) : exec (.read pkg c) s = execRead pkg c s := rfl
@[simp] theorem exec_copyout (pkg : Pkg) (c : Command) : exec (.copyout pkg c) s = execCopyout pkg c s := rfl
@[simp] theorem exec_signal (pkg : Pkg) (c : Command) : exec (.signal pkg c) s = execSignal pkg c s := rfl
@[simp] theorem exec_launch (pkg : Pkg) (c : Command) : exec (.launch pkg c) s = execLaunch pkg c s := rfl
@[simp] theorem exec_cntw (pkg : Pkg) (c : Command) : exec (.cntw pkg c) s = execCntw pkg c s := rfl
@[simp] theorem exec_csrw (pkg : Pkg) (c : Command) : exec (.csrw pkg c) s = execCsrw pkg c s := rfl
@[simp] theorem exec_tablewSpaceRoot (pkg : Pkg) (c : Command) : exec (.tablewSpaceRoot pkg c) s = execTablewSpaceRoot pkg c s := rfl
@[simp] theorem exec_tablewReplicaSet (pkg : Pkg) (c : Command) : exec (.tablewReplicaSet pkg c) s = execTablewReplicaSet pkg c s := rfl
@[simp] theorem exec_tablewMthr (pkg : Pkg) (c : Command) : exec (.tablewMthr pkg c) s = execTablewMthr pkg c s := rfl
@[simp] theorem exec_tablewFramePoolAdd (pkg : Pkg) (c : Command) : exec (.tablewFramePoolAdd pkg c) s = execTablewFramePoolAdd pkg c s := rfl
@[simp] theorem exec_tablewFramePoolRemove (pkg : Pkg) (c : Command) : exec (.tablewFramePoolRemove pkg c) s = execTablewFramePoolRemove pkg c s := rfl
@[simp] theorem exec_tablewTablePoolAdd (pkg : Pkg) (c : Command) : exec (.tablewTablePoolAdd pkg c) s = execTablewTablePoolAdd pkg c s := rfl
@[simp] theorem exec_tablewTablePoolRemove (pkg : Pkg) (c : Command) : exec (.tablewTablePoolRemove pkg c) s = execTablewTablePoolRemove pkg c s := rfl
@[simp] theorem exec_tablewCommunicator (pkg : Pkg) (c : Command) : exec (.tablewCommunicator pkg c) s = execTablewCommunicator pkg c s := rfl
@[simp] theorem exec_tablewEndpoint (pkg : Pkg) (c : Command) : exec (.tablewEndpoint pkg c) s = execTablewEndpoint pkg c s := rfl
@[simp] theorem exec_tablewSaveBases (pkg : Pkg) (c : Command) : exec (.tablewSaveBases pkg c) s = execTablewSaveBases pkg c s := rfl
@[simp] theorem exec_sluiceLend (pkg : Pkg) (c : Command) : exec (.sluiceLend pkg c) s = execSluiceLend pkg c s := rfl
@[simp] theorem exec_sluiceReclaim (pkg : Pkg) (c : Command) : exec (.sluiceReclaim pkg c) s = execSluiceReclaim pkg c s := rfl
@[simp] theorem exec_migrate (pkg : Pkg) (c : Command) : exec (.migrate pkg c) s = execMigrate pkg c s := rfl
@[simp] theorem exec_preemptGang (pkg : Pkg) (c : Command) : exec (.preemptGang pkg c) s = execPreemptGang pkg c s := rfl
@[simp] theorem exec_preemptPartition (pkg : Pkg) (c : Command) : exec (.preemptPartition pkg c) s = execPreemptPartition pkg c s := rfl
@[simp] theorem exec_bankwGreg (pkg : Pkg) (c : Command) : exec (.bankwGreg pkg c) s = execBankwGreg pkg c s := rfl
@[simp] theorem exec_bankwCsr (pkg : Pkg) (c : Command) : exec (.bankwCsr pkg c) s = execBankwCsr pkg c s := rfl
@[simp] theorem exec_bankwTile (pkg : Pkg) (c : Command) : exec (.bankwTile pkg c) s = execBankwTile pkg c s := rfl
@[simp] theorem exec_resumeRetry (pkg : Pkg) (c : Command) : exec (.resumeRetry pkg c) s = execResumeRetry pkg c s := rfl
@[simp] theorem exec_resumeSkip (pkg : Pkg) (c : Command) : exec (.resumeSkip pkg c) s = execResumeSkip pkg c s := rfl
@[simp] theorem exec_resumeEnd (pkg : Pkg) (c : Command) : exec (.resumeEnd pkg c) s = execResumeEnd pkg c s := rfl
@[simp] theorem exec_evread (pkg : Pkg) (c : Command) : exec (.evread pkg c) s = execEvread pkg c s := rfl
@[simp] theorem exec_snap (pkg : Pkg) (c : Command) : exec (.snap pkg c) s = execSnap pkg c s := rfl
@[simp] theorem exec_parity (pkg : Pkg) (c : Command) : exec (.parity pkg c) s = execParity pkg c s := rfl
@[simp] theorem exec_restore (pkg : Pkg) (c : Command) : exec (.restore pkg c) s = execRestore pkg c s := rfl
@[simp] theorem exec_rankCreate (pkg : Pkg) (c : Command) : exec (.rankCreate pkg c) s = execRankCreate pkg c s := rfl
@[simp] theorem exec_rankEnd (pkg : Pkg) (c : Command) : exec (.rankEnd pkg c) s = execRankEnd pkg c s := rfl
@[simp] theorem exec_invalPage (pkg : Pkg) (c : Command) : exec (.invalPage pkg c) s = execInvalPage pkg c s := rfl
@[simp] theorem exec_invalSpace (pkg : Pkg) (c : Command) : exec (.invalSpace pkg c) s = execInvalSpace pkg c s := rfl
@[simp] theorem exec_swread (pkg : Pkg) (c : Command) : exec (.swread pkg c) s = execSwread pkg c s := rfl
@[simp] theorem exec_swcopy (pkg : Pkg) (c : Command) : exec (.swcopy pkg c) s = execSwcopy pkg c s := rfl
@[simp] theorem exec_limitPlimit (pkg : Pkg) (c : Command) : exec (.limitPlimit pkg c) s = execLimitPlimit pkg c s := rfl
@[simp] theorem exec_limitTlimit (pkg : Pkg) (c : Command) : exec (.limitTlimit pkg c) s = execLimitTlimit pkg c s := rfl
@[simp] theorem exec_limitThreshold (pkg : Pkg) (c : Command) : exec (.limitThreshold pkg c) s = execLimitThreshold pkg c s := rfl
@[simp] theorem exec_illegalWord (w : IWord) : exec (.illegalWord w) s = execIllegalWord w s := rfl
@[simp] theorem exec_unknownOp (pkg : Pkg) (c : Command) : exec (.unknownOp pkg c) s = execUnknownOp pkg c s := rfl
@[simp] theorem exec_step : exec .step s = execStep s := rfl
@[simp] theorem exec_yield : exec .yield s = execYield s := rfl
@[simp] theorem exec_exit : exec .exit s = execExit s := rfl
@[simp] theorem exec_trig : exec .trig s = execTrig s := rfl
@[simp] theorem exec_gbar : exec .gbar s = execGbar s := rfl
@[simp] theorem exec_minv : exec .minv s = execMinv s := rfl
@[simp] theorem exec_mpop : exec .mpop s = execMpop s := rfl
@[simp] theorem exec_mlease : exec .mlease s = execMlease s := rfl
@[simp] theorem exec_mrel : exec .mrel s = execMrel s := rfl
@[simp] theorem exec_peerRequest : exec .peerRequest s = execPeerRequest s := rfl
@[simp] theorem exec_peerResponse : exec .peerResponse s = execPeerResponse s := rfl
@[simp] theorem exec_errorQueuePost : exec .errorQueuePost s = execErrorQueuePost s := rfl
@[simp] theorem exec_flitForward : exec .flitForward s = execFlitForward s := rfl
@[simp] theorem exec_requestTimeout : exec .requestTimeout s = execRequestTimeout s := rfl
@[simp] theorem exec_cellRequest : exec .cellRequest s = execCellRequest s := rfl
@[simp] theorem exec_cellRelease : exec .cellRelease s = execCellRelease s := rfl
@[simp] theorem exec_cellGrant : exec .cellGrant s = execCellGrant s := rfl
@[simp] theorem exec_lendRequest : exec .lendRequest s = execLendRequest s := rfl
@[simp] theorem exec_leaseOffer : exec .leaseOffer s = execLeaseOffer s := rfl
@[simp] theorem exec_offerAnswer : exec .offerAnswer s = execOfferAnswer s := rfl
@[simp] theorem exec_reclaimEvent : exec .reclaimEvent s = execReclaimEvent s := rfl
@[simp] theorem exec_returnMessage : exec .returnMessage s = execReturnMessage s := rfl
@[simp] theorem exec_fenceMessage : exec .fenceMessage s = execFenceMessage s := rfl
@[simp] theorem exec_polderRequest : exec .polderRequest s = execPolderRequest s := rfl
@[simp] theorem exec_collectiveMessage : exec .collectiveMessage s = execCollectiveMessage s := rfl
@[simp] theorem exec_collectiveAbort : exec .collectiveAbort s = execCollectiveAbort s := rfl
@[simp] theorem exec_endpointUpdate : exec .endpointUpdate s = execEndpointUpdate s := rfl

end Sys2Proof.Machine
end

