-- ==== Sys2Proof/Laws/PerInstr.lean ====
section
/-! SUPPORT. Per instruction: it has a word, a command, or neither, and never both. -/

namespace Sys2Proof.Laws

/-- An instruction has at most one word, and one that has a word is no Sluice command. -/
def Shape.Statement (i : Instr) : Prop := (encode i).length ≤ 1 ∧ (encode i ≠ [] → encodeCommand i = none)

theorem Shape.add x0 x1 x2 : Shape.Statement (.add x0 x1 x2) := ⟨Nat.le_refl _, fun _ => rfl⟩
theorem Shape.sub x0 x1 x2 : Shape.Statement (.sub x0 x1 x2) := ⟨Nat.le_refl _, fun _ => rfl⟩
theorem Shape.mul x0 x1 x2 : Shape.Statement (.mul x0 x1 x2) := ⟨Nat.le_refl _, fun _ => rfl⟩
theorem Shape.mulh x0 x1 x2 : Shape.Statement (.mulh x0 x1 x2) := ⟨Nat.le_refl _, fun _ => rfl⟩
theorem Shape.mulhu x0 x1 x2 : Shape.Statement (.mulhu x0 x1 x2) := ⟨Nat.le_refl _, fun _ => rfl⟩
theorem Shape.div x0 x1 x2 : Shape.Statement (.div x0 x1 x2) := ⟨Nat.le_refl _, fun _ => rfl⟩
theorem Shape.divu x0 x1 x2 : Shape.Statement (.divu x0 x1 x2) := ⟨Nat.le_refl _, fun _ => rfl⟩
theorem Shape.rem x0 x1 x2 : Shape.Statement (.rem x0 x1 x2) := ⟨Nat.le_refl _, fun _ => rfl⟩
theorem Shape.remu x0 x1 x2 : Shape.Statement (.remu x0 x1 x2) := ⟨Nat.le_refl _, fun _ => rfl⟩
theorem Shape.and x0 x1 x2 : Shape.Statement (.and x0 x1 x2) := ⟨Nat.le_refl _, fun _ => rfl⟩
theorem Shape.or x0 x1 x2 : Shape.Statement (.or x0 x1 x2) := ⟨Nat.le_refl _, fun _ => rfl⟩
theorem Shape.xor x0 x1 x2 : Shape.Statement (.xor x0 x1 x2) := ⟨Nat.le_refl _, fun _ => rfl⟩
theorem Shape.shl x0 x1 x2 : Shape.Statement (.shl x0 x1 x2) := ⟨Nat.le_refl _, fun _ => rfl⟩
theorem Shape.shr x0 x1 x2 : Shape.Statement (.shr x0 x1 x2) := ⟨Nat.le_refl _, fun _ => rfl⟩
theorem Shape.sra x0 x1 x2 : Shape.Statement (.sra x0 x1 x2) := ⟨Nat.le_refl _, fun _ => rfl⟩
theorem Shape.slt x0 x1 x2 : Shape.Statement (.slt x0 x1 x2) := ⟨Nat.le_refl _, fun _ => rfl⟩
theorem Shape.sltu x0 x1 x2 : Shape.Statement (.sltu x0 x1 x2) := ⟨Nat.le_refl _, fun _ => rfl⟩
theorem Shape.min x0 x1 x2 : Shape.Statement (.min x0 x1 x2) := ⟨Nat.le_refl _, fun _ => rfl⟩
theorem Shape.max x0 x1 x2 : Shape.Statement (.max x0 x1 x2) := ⟨Nat.le_refl _, fun _ => rfl⟩
theorem Shape.minu x0 x1 x2 : Shape.Statement (.minu x0 x1 x2) := ⟨Nat.le_refl _, fun _ => rfl⟩
theorem Shape.maxu x0 x1 x2 : Shape.Statement (.maxu x0 x1 x2) := ⟨Nat.le_refl _, fun _ => rfl⟩
theorem Shape.sel x0 x1 x2 : Shape.Statement (.sel x0 x1 x2) := ⟨Nat.le_refl _, fun _ => rfl⟩
theorem Shape.clz x0 x1 : Shape.Statement (.clz x0 x1) := ⟨Nat.le_refl _, fun _ => rfl⟩
theorem Shape.popc x0 x1 : Shape.Statement (.popc x0 x1) := ⟨Nat.le_refl _, fun _ => rfl⟩
theorem Shape.shli x0 x1 x2 : Shape.Statement (.shli x0 x1 x2) := ⟨Nat.le_refl _, fun _ => rfl⟩
theorem Shape.shri x0 x1 x2 : Shape.Statement (.shri x0 x1 x2) := ⟨Nat.le_refl _, fun _ => rfl⟩
theorem Shape.srai x0 x1 x2 : Shape.Statement (.srai x0 x1 x2) := ⟨Nat.le_refl _, fun _ => rfl⟩
theorem Shape.addi x0 x1 x2 : Shape.Statement (.addi x0 x1 x2) := ⟨Nat.le_refl _, fun _ => rfl⟩
theorem Shape.andi x0 x1 x2 : Shape.Statement (.andi x0 x1 x2) := ⟨Nat.le_refl _, fun _ => rfl⟩
theorem Shape.ori x0 x1 x2 : Shape.Statement (.ori x0 x1 x2) := ⟨Nat.le_refl _, fun _ => rfl⟩
theorem Shape.xori x0 x1 x2 : Shape.Statement (.xori x0 x1 x2) := ⟨Nat.le_refl _, fun _ => rfl⟩
theorem Shape.slti x0 x1 x2 : Shape.Statement (.slti x0 x1 x2) := ⟨Nat.le_refl _, fun _ => rfl⟩
theorem Shape.bfx x0 x1 x2 x3 : Shape.Statement (.bfx x0 x1 x2 x3) := ⟨Nat.le_refl _, fun _ => rfl⟩
theorem Shape.bfi x0 x1 x2 x3 : Shape.Statement (.bfi x0 x1 x2 x3) := ⟨Nat.le_refl _, fun _ => rfl⟩
theorem Shape.li x0 x1 : Shape.Statement (.li x0 x1) := ⟨Nat.le_refl _, fun _ => rfl⟩
theorem Shape.lih x0 : Shape.Statement (.lih x0) := ⟨Nat.le_refl _, fun _ => rfl⟩
theorem Shape.b x0 : Shape.Statement (.b x0) := ⟨Nat.le_refl _, fun _ => rfl⟩
theorem Shape.call x0 : Shape.Statement (.call x0) := ⟨Nat.le_refl _, fun _ => rfl⟩
theorem Shape.jr x0 : Shape.Statement (.jr x0) := ⟨Nat.le_refl _, fun _ => rfl⟩
theorem Shape.loop x0 x1 : Shape.Statement (.loop x0 x1) := ⟨Nat.le_refl _, fun _ => rfl⟩
theorem Shape.beq x0 x1 x2 : Shape.Statement (.beq x0 x1 x2) := ⟨Nat.le_refl _, fun _ => rfl⟩
theorem Shape.bne x0 x1 x2 : Shape.Statement (.bne x0 x1 x2) := ⟨Nat.le_refl _, fun _ => rfl⟩
theorem Shape.blt x0 x1 x2 : Shape.Statement (.blt x0 x1 x2) := ⟨Nat.le_refl _, fun _ => rfl⟩
theorem Shape.bge x0 x1 x2 : Shape.Statement (.bge x0 x1 x2) := ⟨Nat.le_refl _, fun _ => rfl⟩
theorem Shape.bltu x0 x1 x2 : Shape.Statement (.bltu x0 x1 x2) := ⟨Nat.le_refl _, fun _ => rfl⟩
theorem Shape.bgeu x0 x1 x2 : Shape.Statement (.bgeu x0 x1 x2) := ⟨Nat.le_refl _, fun _ => rfl⟩
theorem Shape.csrR x0 x1 : Shape.Statement (.csrR x0 x1) := ⟨Nat.le_refl _, fun _ => rfl⟩
theorem Shape.csrW x0 x1 x2 : Shape.Statement (.csrW x0 x1 x2) := ⟨Nat.le_refl _, fun _ => rfl⟩
theorem Shape.csrS x0 x1 x2 : Shape.Statement (.csrS x0 x1 x2) := ⟨Nat.le_refl _, fun _ => rfl⟩
theorem Shape.csrC x0 x1 x2 : Shape.Statement (.csrC x0 x1 x2) := ⟨Nat.le_refl _, fun _ => rfl⟩
theorem Shape.tcfg x0 x1 : Shape.Statement (.tcfg x0 x1) := ⟨Nat.le_refl _, fun _ => rfl⟩
theorem Shape.rng x0 x1 x2 : Shape.Statement (.rng x0 x1 x2) := ⟨Nat.le_refl _, fun _ => rfl⟩
theorem Shape.rngRs x0 x1 x2 : Shape.Statement (.rngRs x0 x1 x2) := ⟨Nat.le_refl _, fun _ => rfl⟩
theorem Shape.step : Shape.Statement (.step) := ⟨Nat.le_refl _, fun _ => rfl⟩
theorem Shape.yield : Shape.Statement (.yield) := ⟨Nat.le_refl _, fun _ => rfl⟩
theorem Shape.exit : Shape.Statement (.exit) := ⟨Nat.le_refl _, fun _ => rfl⟩
theorem Shape.trig : Shape.Statement (.trig) := ⟨Nat.le_refl _, fun _ => rfl⟩
theorem Shape.gbar : Shape.Statement (.gbar) := ⟨Nat.le_refl _, fun _ => rfl⟩
theorem Shape.trap x0 : Shape.Statement (.trap x0) := ⟨Nat.le_refl _, fun _ => rfl⟩
theorem Shape.sys x0 : Shape.Statement (.sys x0) := ⟨Nat.le_refl _, fun _ => rfl⟩
theorem Shape.enq x0 x1 x2 : Shape.Statement (.enq x0 x1 x2) := ⟨Nat.le_refl _, fun _ => rfl⟩
theorem Shape.lds x0 x1 x2 x3 : Shape.Statement (.lds x0 x1 x2 x3) := ⟨Nat.le_refl _, fun _ => rfl⟩
theorem Shape.sts x0 x1 x2 x3 : Shape.Statement (.sts x0 x1 x2 x3) := ⟨Nat.le_refl _, fun _ => rfl⟩
theorem Shape.ldg x0 x1 x2 x3 : Shape.Statement (.ldg x0 x1 x2 x3) := ⟨Nat.le_refl _, fun _ => rfl⟩
theorem Shape.stg x0 x1 x2 x3 : Shape.Statement (.stg x0 x1 x2 x3) := ⟨Nat.le_refl _, fun _ => rfl⟩
theorem Shape.ldgAcq x0 x1 x2 : Shape.Statement (.ldgAcq x0 x1 x2) := ⟨Nat.le_refl _, fun _ => rfl⟩
theorem Shape.stgRel x0 x1 x2 : Shape.Statement (.stgRel x0 x1 x2) := ⟨Nat.le_refl _, fun _ => rfl⟩
theorem Shape.ldfK x0 x1 x2 x3 : Shape.Statement (.ldfK x0 x1 x2 x3) := ⟨Nat.le_refl _, fun _ => rfl⟩
theorem Shape.ldfC x0 x1 x2 x3 : Shape.Statement (.ldfC x0 x1 x2 x3) := ⟨Nat.le_refl _, fun _ => rfl⟩
theorem Shape.waitfK x0 x1 : Shape.Statement (.waitfK x0 x1) := ⟨Nat.le_refl _, fun _ => rfl⟩
theorem Shape.waitfC x0 x1 : Shape.Statement (.waitfC x0 x1) := ⟨Nat.le_refl _, fun _ => rfl⟩
theorem Shape.amo x0 x1 x2 x3 x4 x5 : Shape.Statement (.amo x0 x1 x2 x3 x4 x5) := ⟨Nat.le_refl _, fun _ => rfl⟩
theorem Shape.cas x0 x1 x2 x3 : Shape.Statement (.cas x0 x1 x2 x3) := ⟨Nat.le_refl _, fun _ => rfl⟩
theorem Shape.acq x0 : Shape.Statement (.acq x0) := ⟨Nat.le_refl _, fun _ => rfl⟩
theorem Shape.acqSh x0 : Shape.Statement (.acqSh x0) := ⟨Nat.le_refl _, fun _ => rfl⟩
theorem Shape.rel x0 : Shape.Statement (.rel x0) := ⟨Nat.le_refl _, fun _ => rfl⟩
theorem Shape.bind x0 x1 x2 x3 : Shape.Statement (.bind x0 x1 x2 x3) := ⟨Nat.le_refl _, fun _ => rfl⟩
theorem Shape.lend x0 x1 : Shape.Statement (.lend x0 x1) := ⟨Nat.le_refl _, fun _ => rfl⟩
theorem Shape.reclaim x0 x1 : Shape.Statement (.reclaim x0 x1) := ⟨Nat.le_refl _, fun _ => rfl⟩
theorem Shape.tlbi x0 : Shape.Statement (.tlbi x0) := ⟨Nat.le_refl _, fun _ => rfl⟩
theorem Shape.tlbiSp x0 : Shape.Statement (.tlbiSp x0) := ⟨Nat.le_refl _, fun _ => rfl⟩
theorem Shape.pgsplit x0 x1 : Shape.Statement (.pgsplit x0 x1) := ⟨Nat.le_refl _, fun _ => rfl⟩
theorem Shape.pgcoll x0 x1 x2 : Shape.Statement (.pgcoll x0 x1 x2) := ⟨Nat.le_refl _, fun _ => rfl⟩
theorem Shape.pgmig x0 x1 x2 : Shape.Statement (.pgmig x0 x1 x2) := ⟨Nat.le_refl _, fun _ => rfl⟩
theorem Shape.pageProcedureDone x0 : Shape.Statement (.pageProcedureDone x0) := ⟨Nat.zero_le _, fun h => absurd rfl h⟩
theorem Shape.nop x0 : Shape.Statement (.nop x0) := ⟨Nat.le_refl _, fun _ => rfl⟩
theorem Shape.fence x0 x1 : Shape.Statement (.fence x0 x1) := ⟨Nat.le_refl _, fun _ => rfl⟩
theorem Shape.sigk x0 x1 x2 : Shape.Statement (.sigk x0 x1 x2) := ⟨Nat.le_refl _, fun _ => rfl⟩
theorem Shape.waitk x0 x1 x2 : Shape.Statement (.waitk x0 x1 x2) := ⟨Nat.le_refl _, fun _ => rfl⟩
theorem Shape.arinit x0 x1 x2 x3 : Shape.Statement (.arinit x0 x1 x2 x3) := ⟨Nat.le_refl _, fun _ => rfl⟩
theorem Shape.arwait x0 x1 x2 x3 : Shape.Statement (.arwait x0 x1 x2 x3) := ⟨Nat.le_refl _, fun _ => rfl⟩
theorem Shape.fset x0 x1 x2 x3 : Shape.Statement (.fset x0 x1 x2 x3) := ⟨Nat.le_refl _, fun _ => rfl⟩
theorem Shape.fclr x0 x1 x2 x3 : Shape.Statement (.fclr x0 x1 x2 x3) := ⟨Nat.le_refl _, fun _ => rfl⟩
theorem Shape.tld x0 x1 x2 : Shape.Statement (.tld x0 x1 x2) := ⟨Nat.le_refl _, fun _ => rfl⟩
theorem Shape.tldt x0 x1 x2 : Shape.Statement (.tldt x0 x1 x2) := ⟨Nat.le_refl _, fun _ => rfl⟩
theorem Shape.tldk x0 x1 x2 : Shape.Statement (.tldk x0 x1 x2) := ⟨Nat.le_refl _, fun _ => rfl⟩
theorem Shape.cbld x0 x1 : Shape.Statement (.cbld x0 x1) := ⟨Nat.le_refl _, fun _ => rfl⟩
theorem Shape.gather x0 x1 x2 x3 x4 : Shape.Statement (.gather x0 x1 x2 x3 x4) := ⟨Nat.le_refl _, fun _ => rfl⟩
theorem Shape.gred x0 x1 x2 x3 x4 x5 x6 : Shape.Statement (.gred x0 x1 x2 x3 x4 x5 x6) := ⟨Nat.le_refl _, fun _ => rfl⟩
theorem Shape.cpy x0 x1 x2 x3 x4 : Shape.Statement (.cpy x0 x1 x2 x3 x4) := ⟨Nat.le_refl _, fun _ => rfl⟩
theorem Shape.cpyt x0 x1 x2 x3 x4 : Shape.Statement (.cpyt x0 x1 x2 x3 x4) := ⟨Nat.le_refl _, fun _ => rfl⟩
theorem Shape.tmov x0 x1 x2 x3 : Shape.Statement (.tmov x0 x1 x2 x3) := ⟨Nat.le_refl _, fun _ => rfl⟩
theorem Shape.vadd x0 x1 x2 x3 : Shape.Statement (.vadd x0 x1 x2 x3) := ⟨Nat.le_refl _, fun _ => rfl⟩
theorem Shape.vsub x0 x1 x2 x3 : Shape.Statement (.vsub x0 x1 x2 x3) := ⟨Nat.le_refl _, fun _ => rfl⟩
theorem Shape.vmul x0 x1 x2 x3 : Shape.Statement (.vmul x0 x1 x2 x3) := ⟨Nat.le_refl _, fun _ => rfl⟩
theorem Shape.vfma x0 x1 x2 x3 : Shape.Statement (.vfma x0 x1 x2 x3) := ⟨Nat.le_refl _, fun _ => rfl⟩
theorem Shape.vfms x0 x1 x2 x3 : Shape.Statement (.vfms x0 x1 x2 x3) := ⟨Nat.le_refl _, fun _ => rfl⟩
theorem Shape.vfnma x0 x1 x2 x3 : Shape.Statement (.vfnma x0 x1 x2 x3) := ⟨Nat.le_refl _, fun _ => rfl⟩
theorem Shape.vmin x0 x1 x2 x3 x4 : Shape.Statement (.vmin x0 x1 x2 x3 x4) := ⟨Nat.le_refl _, fun _ => rfl⟩
theorem Shape.vmax x0 x1 x2 x3 x4 : Shape.Statement (.vmax x0 x1 x2 x3 x4) := ⟨Nat.le_refl _, fun _ => rfl⟩
theorem Shape.vabs x0 x1 : Shape.Statement (.vabs x0 x1) := ⟨Nat.le_refl _, fun _ => rfl⟩
theorem Shape.vneg x0 x1 : Shape.Statement (.vneg x0 x1) := ⟨Nat.le_refl _, fun _ => rfl⟩
theorem Shape.vcmp x0 x1 x2 x3 x4 : Shape.Statement (.vcmp x0 x1 x2 x3 x4) := ⟨Nat.le_refl _, fun _ => rfl⟩
theorem Shape.vsel x0 x1 x2 : Shape.Statement (.vsel x0 x1 x2) := ⟨Nat.le_refl _, fun _ => rfl⟩
theorem Shape.vcvt x0 x1 x2 : Shape.Statement (.vcvt x0 x1 x2) := ⟨Nat.le_refl _, fun _ => rfl⟩
theorem Shape.viadd x0 x1 x2 x3 : Shape.Statement (.viadd x0 x1 x2 x3) := ⟨Nat.le_refl _, fun _ => rfl⟩
theorem Shape.visub x0 x1 x2 x3 : Shape.Statement (.visub x0 x1 x2 x3) := ⟨Nat.le_refl _, fun _ => rfl⟩
theorem Shape.vimul x0 x1 x2 x3 : Shape.Statement (.vimul x0 x1 x2 x3) := ⟨Nat.le_refl _, fun _ => rfl⟩
theorem Shape.vand x0 x1 x2 : Shape.Statement (.vand x0 x1 x2) := ⟨Nat.le_refl _, fun _ => rfl⟩
theorem Shape.vor x0 x1 x2 : Shape.Statement (.vor x0 x1 x2) := ⟨Nat.le_refl _, fun _ => rfl⟩
theorem Shape.vxor x0 x1 x2 : Shape.Statement (.vxor x0 x1 x2) := ⟨Nat.le_refl _, fun _ => rfl⟩
theorem Shape.vnot x0 x1 : Shape.Statement (.vnot x0 x1) := ⟨Nat.le_refl _, fun _ => rfl⟩
theorem Shape.vshl x0 x1 x2 x3 : Shape.Statement (.vshl x0 x1 x2 x3) := ⟨Nat.le_refl _, fun _ => rfl⟩
theorem Shape.vshr x0 x1 x2 x3 : Shape.Statement (.vshr x0 x1 x2 x3) := ⟨Nat.le_refl _, fun _ => rfl⟩
theorem Shape.vsra x0 x1 x2 x3 : Shape.Statement (.vsra x0 x1 x2 x3) := ⟨Nat.le_refl _, fun _ => rfl⟩
theorem Shape.vmov x0 x1 : Shape.Statement (.vmov x0 x1) := ⟨Nat.le_refl _, fun _ => rfl⟩
theorem Shape.vmovG x0 x1 : Shape.Statement (.vmovG x0 x1) := ⟨Nat.le_refl _, fun _ => rfl⟩
theorem Shape.vbcr x0 x1 x2 : Shape.Statement (.vbcr x0 x1 x2) := ⟨Nat.le_refl _, fun _ => rfl⟩
theorem Shape.vbcc x0 x1 x2 : Shape.Statement (.vbcc x0 x1 x2) := ⟨Nat.le_refl _, fun _ => rfl⟩
theorem Shape.vrotr x0 x1 x2 : Shape.Statement (.vrotr x0 x1 x2) := ⟨Nat.le_refl _, fun _ => rfl⟩
theorem Shape.vrotc x0 x1 x2 : Shape.Statement (.vrotc x0 x1 x2) := ⟨Nat.le_refl _, fun _ => rfl⟩
theorem Shape.vredr x0 x1 x2 x3 : Shape.Statement (.vredr x0 x1 x2 x3) := ⟨Nat.le_refl _, fun _ => rfl⟩
theorem Shape.vredc x0 x1 x2 x3 : Shape.Statement (.vredc x0 x1 x2 x3) := ⟨Nat.le_refl _, fun _ => rfl⟩
theorem Shape.vscanr x0 x1 x2 x3 x4 : Shape.Statement (.vscanr x0 x1 x2 x3 x4) := ⟨Nat.le_refl _, fun _ => rfl⟩
theorem Shape.vscanc x0 x1 x2 x3 x4 : Shape.Statement (.vscanc x0 x1 x2 x3 x4) := ⟨Nat.le_refl _, fun _ => rfl⟩
theorem Shape.viota x0 x1 : Shape.Statement (.viota x0 x1) := ⟨Nat.le_refl _, fun _ => rfl⟩
theorem Shape.vrng x0 x1 x2 x3 x4 : Shape.Statement (.vrng x0 x1 x2 x3 x4) := ⟨Nat.le_refl _, fun _ => rfl⟩
theorem Shape.vcor x0 x1 x2 x3 : Shape.Statement (.vcor x0 x1 x2 x3) := ⟨Nat.le_refl _, fun _ => rfl⟩
theorem Shape.vdkadd x0 x1 x2 : Shape.Statement (.vdkadd x0 x1 x2) := ⟨Nat.le_refl _, fun _ => rfl⟩
theorem Shape.vdkapp x0 x1 : Shape.Statement (.vdkapp x0 x1) := ⟨Nat.le_refl _, fun _ => rfl⟩
theorem Shape.mpush x0 : Shape.Statement (.mpush x0) := ⟨Nat.le_refl _, fun _ => rfl⟩
theorem Shape.mpushNew x0 : Shape.Statement (.mpushNew x0) := ⟨Nat.le_refl _, fun _ => rfl⟩
theorem Shape.minv : Shape.Statement (.minv) := ⟨Nat.le_refl _, fun _ => rfl⟩
theorem Shape.mpop : Shape.Statement (.mpop) := ⟨Nat.le_refl _, fun _ => rfl⟩
theorem Shape.bmz x0 : Shape.Statement (.bmz x0) := ⟨Nat.le_refl _, fun _ => rfl⟩
theorem Shape.mlease : Shape.Statement (.mlease) := ⟨Nat.le_refl _, fun _ => rfl⟩
theorem Shape.mrel : Shape.Statement (.mrel) := ⟨Nat.le_refl _, fun _ => rfl⟩
theorem Shape.mma x0 x1 x2 : Shape.Statement (.mma x0 x1 x2) := ⟨Nat.le_refl _, fun _ => rfl⟩
theorem Shape.mmag x0 x1 x2 : Shape.Statement (.mmag x0 x1 x2) := ⟨Nat.le_refl _, fun _ => rfl⟩
theorem Shape.aalloc x0 x1 : Shape.Statement (.aalloc x0 x1) := ⟨Nat.le_refl _, fun _ => rfl⟩
theorem Shape.afree x0 x1 : Shape.Statement (.afree x0 x1) := ⟨Nat.le_refl _, fun _ => rfl⟩
theorem Shape.azero x0 x1 : Shape.Statement (.azero x0 x1) := ⟨Nat.le_refl _, fun _ => rfl⟩
theorem Shape.aadd x0 x1 : Shape.Statement (.aadd x0 x1) := ⟨Nat.le_refl _, fun _ => rfl⟩
theorem Shape.adrain x0 x1 : Shape.Statement (.adrain x0 x1) := ⟨Nat.le_refl _, fun _ => rfl⟩
theorem Shape.tunpk x0 x1 x2 : Shape.Statement (.tunpk x0 x1 x2) := ⟨Nat.le_refl _, fun _ => rfl⟩
theorem Shape.tst x0 x1 x2 : Shape.Statement (.tst x0 x1 x2) := ⟨Nat.le_refl _, fun _ => rfl⟩
theorem Shape.tstk x0 x1 x2 : Shape.Statement (.tstk x0 x1 x2) := ⟨Nat.le_refl _, fun _ => rfl⟩
theorem Shape.ast x0 x1 x2 : Shape.Statement (.ast x0 x1 x2) := ⟨Nat.le_refl _, fun _ => rfl⟩
theorem Shape.scat x0 x1 x2 x3 x4 : Shape.Statement (.scat x0 x1 x2 x3 x4) := ⟨Nat.le_refl _, fun _ => rfl⟩
theorem Shape.scata x0 x1 x2 x3 x4 x5 : Shape.Statement (.scata x0 x1 x2 x3 x4 x5) := ⟨Nat.le_refl _, fun _ => rfl⟩
theorem Shape.upd x0 x1 x2 x3 x4 x5 : Shape.Statement (.upd x0 x1 x2 x3 x4 x5) := ⟨Nat.le_refl _, fun _ => rfl⟩
theorem Shape.car x0 x1 x2 x3 : Shape.Statement (.car x0 x1 x2 x3) := ⟨Nat.le_refl _, fun _ => rfl⟩
theorem Shape.crs x0 x1 x2 x3 : Shape.Statement (.crs x0 x1 x2 x3) := ⟨Nat.le_refl _, fun _ => rfl⟩
theorem Shape.cag x0 x1 x2 x3 : Shape.Statement (.cag x0 x1 x2 x3) := ⟨Nat.le_refl _, fun _ => rfl⟩
theorem Shape.cbc x0 x1 x2 x3 : Shape.Statement (.cbc x0 x1 x2 x3) := ⟨Nat.le_refl _, fun _ => rfl⟩
theorem Shape.waitkSatisfied x0 x1 : Shape.Statement (.waitkSatisfied x0 x1) := ⟨Nat.zero_le _, fun h => absurd rfl h⟩
theorem Shape.sigkRoom x0 x1 : Shape.Statement (.sigkRoom x0 x1) := ⟨Nat.zero_le _, fun h => absurd rfl h⟩
theorem Shape.fullEmptyWaitDone x0 x1 : Shape.Statement (.fullEmptyWaitDone x0 x1) := ⟨Nat.zero_le _, fun h => absurd rfl h⟩
theorem Shape.arwaitDone x0 x1 : Shape.Statement (.arwaitDone x0 x1) := ⟨Nat.zero_le _, fun h => absurd rfl h⟩
theorem Shape.gbarEpisodeComplete x0 : Shape.Statement (.gbarEpisodeComplete x0) := ⟨Nat.zero_le _, fun h => absurd rfl h⟩
theorem Shape.matrixArrayGrant x0 : Shape.Statement (.matrixArrayGrant x0) := ⟨Nat.zero_le _, fun h => absurd rfl h⟩
theorem Shape.leaseLapse x0 : Shape.Statement (.leaseLapse x0) := ⟨Nat.zero_le _, fun h => absurd rfl h⟩
theorem Shape.exitRetire x0 : Shape.Statement (.exitRetire x0) := ⟨Nat.zero_le _, fun h => absurd rfl h⟩
theorem Shape.stepBoundary x0 : Shape.Statement (.stepBoundary x0) := ⟨Nat.zero_le _, fun h => absurd rfl h⟩
theorem Shape.bankUnpark x0 : Shape.Statement (.bankUnpark x0) := ⟨Nat.zero_le _, fun h => absurd rfl h⟩
theorem Shape.strandFaultStop x0 : Shape.Statement (.strandFaultStop x0) := ⟨Nat.zero_le _, fun h => absurd rfl h⟩
theorem Shape.chunkArrive x0 x1 x2 : Shape.Statement (.chunkArrive x0 x1 x2) := ⟨Nat.zero_le _, fun h => absurd rfl h⟩
theorem Shape.chunkFault x0 x1 : Shape.Statement (.chunkFault x0 x1) := ⟨Nat.zero_le _, fun h => absurd rfl h⟩
theorem Shape.astFinish x0 : Shape.Statement (.astFinish x0) := ⟨Nat.zero_le _, fun h => absurd rfl h⟩
theorem Shape.commandRelocate x0 x1 x2 : Shape.Statement (.commandRelocate x0 x1 x2) := ⟨Nat.zero_le _, fun h => absurd rfl h⟩
theorem Shape.nestActivate x0 : Shape.Statement (.nestActivate x0) := ⟨Nat.zero_le _, fun h => absurd rfl h⟩
theorem Shape.gangDispatch x0 x1 : Shape.Statement (.gangDispatch x0 x1) := ⟨Nat.zero_le _, fun h => absurd rfl h⟩
theorem Shape.gangResume x0 x1 : Shape.Statement (.gangResume x0 x1) := ⟨Nat.zero_le _, fun h => absurd rfl h⟩
theorem Shape.gangSwitchOut x0 : Shape.Statement (.gangSwitchOut x0) := ⟨Nat.zero_le _, fun h => absurd rfl h⟩
theorem Shape.partitionExchangeDone x0 : Shape.Statement (.partitionExchangeDone x0) := ⟨Nat.zero_le _, fun h => absurd rfl h⟩
theorem Shape.segmentBind x0 x1 : Shape.Statement (.segmentBind x0 x1) := ⟨Nat.zero_le _, fun h => absurd rfl h⟩
theorem Shape.peerRequest : Shape.Statement (.peerRequest) := ⟨Nat.zero_le _, fun h => absurd rfl h⟩
theorem Shape.peerResponse : Shape.Statement (.peerResponse) := ⟨Nat.zero_le _, fun h => absurd rfl h⟩
theorem Shape.errorQueuePost : Shape.Statement (.errorQueuePost) := ⟨Nat.zero_le _, fun h => absurd rfl h⟩
theorem Shape.flitForward : Shape.Statement (.flitForward) := ⟨Nat.zero_le _, fun h => absurd rfl h⟩
theorem Shape.requestTimeout : Shape.Statement (.requestTimeout) := ⟨Nat.zero_le _, fun h => absurd rfl h⟩
theorem Shape.routeEntryLoad x0 x1 x2 : Shape.Statement (.routeEntryLoad x0 x1 x2) := ⟨Nat.zero_le _, fun h => absurd rfl h⟩
theorem Shape.linkRetry x0 x1 : Shape.Statement (.linkRetry x0 x1) := ⟨Nat.zero_le _, fun h => absurd rfl h⟩
theorem Shape.cellRequest : Shape.Statement (.cellRequest) := ⟨Nat.zero_le _, fun h => absurd rfl h⟩
theorem Shape.cellRelease : Shape.Statement (.cellRelease) := ⟨Nat.zero_le _, fun h => absurd rfl h⟩
theorem Shape.cellGrant : Shape.Statement (.cellGrant) := ⟨Nat.zero_le _, fun h => absurd rfl h⟩
theorem Shape.hwMigrationDone x0 : Shape.Statement (.hwMigrationDone x0) := ⟨Nat.zero_le _, fun h => absurd rfl h⟩
theorem Shape.lendRequest : Shape.Statement (.lendRequest) := ⟨Nat.zero_le _, fun h => absurd rfl h⟩
theorem Shape.leaseOffer : Shape.Statement (.leaseOffer) := ⟨Nat.zero_le _, fun h => absurd rfl h⟩
theorem Shape.offerAnswer : Shape.Statement (.offerAnswer) := ⟨Nat.zero_le _, fun h => absurd rfl h⟩
theorem Shape.reclaimEvent : Shape.Statement (.reclaimEvent) := ⟨Nat.zero_le _, fun h => absurd rfl h⟩
theorem Shape.pageDemoteDone x0 x1 : Shape.Statement (.pageDemoteDone x0 x1) := ⟨Nat.zero_le _, fun h => absurd rfl h⟩
theorem Shape.returnMessage : Shape.Statement (.returnMessage) := ⟨Nat.zero_le _, fun h => absurd rfl h⟩
theorem Shape.reclaimDeadline x0 x1 : Shape.Statement (.reclaimDeadline x0 x1) := ⟨Nat.zero_le _, fun h => absurd rfl h⟩
theorem Shape.fenceMessage : Shape.Statement (.fenceMessage) := ⟨Nat.zero_le _, fun h => absurd rfl h⟩
theorem Shape.packageLost x0 x1 : Shape.Statement (.packageLost x0 x1) := ⟨Nat.zero_le _, fun h => absurd rfl h⟩
theorem Shape.polderRequest : Shape.Statement (.polderRequest) := ⟨Nat.zero_le _, fun h => absurd rfl h⟩
theorem Shape.collectiveMessage : Shape.Statement (.collectiveMessage) := ⟨Nat.zero_le _, fun h => absurd rfl h⟩
theorem Shape.collectiveAbort : Shape.Statement (.collectiveAbort) := ⟨Nat.zero_le _, fun h => absurd rfl h⟩
theorem Shape.precopyRound x0 : Shape.Statement (.precopyRound x0) := ⟨Nat.zero_le _, fun h => absurd rfl h⟩
theorem Shape.endpointUpdate : Shape.Statement (.endpointUpdate) := ⟨Nat.zero_le _, fun h => absurd rfl h⟩
theorem Shape.sweepPage x0 : Shape.Statement (.sweepPage x0) := ⟨Nat.zero_le _, fun h => absurd rfl h⟩
theorem Shape.snapshotPageCopy x0 : Shape.Statement (.snapshotPageCopy x0) := ⟨Nat.zero_le _, fun h => absurd rfl h⟩
theorem Shape.correctedError x0 x1 : Shape.Statement (.correctedError x0 x1) := ⟨Nat.zero_le _, fun h => absurd rfl h⟩
theorem Shape.thermalTrip x0 : Shape.Statement (.thermalTrip x0) := ⟨Nat.zero_le _, fun h => absurd rfl h⟩
theorem Shape.limitEngage x0 x1 x2 x3 : Shape.Statement (.limitEngage x0 x1 x2 x3) := ⟨Nat.zero_le _, fun h => absurd rfl h⟩
theorem Shape.startStepDone x0 x1 : Shape.Statement (.startStepDone x0 x1) := ⟨Nat.zero_le _, fun h => absurd rfl h⟩
theorem Shape.startStepFail x0 x1 x2 : Shape.Statement (.startStepFail x0 x1 x2) := ⟨Nat.zero_le _, fun h => absurd rfl h⟩
theorem Shape.startCold x0 : Shape.Statement (.startCold x0) := ⟨Nat.zero_le _, fun h => absurd rfl h⟩
theorem Shape.startWarm x0 : Shape.Statement (.startWarm x0) := ⟨Nat.zero_le _, fun h => absurd rfl h⟩
theorem Shape.stopCold x0 x1 : Shape.Statement (.stopCold x0 x1) := ⟨Nat.zero_le _, fun h => absurd rfl h⟩
theorem Shape.stopWarm x0 : Shape.Statement (.stopWarm x0) := ⟨Nat.zero_le _, fun h => absurd rfl h⟩
theorem Shape.sqtailDoorbell x0 x1 : Shape.Statement (.sqtailDoorbell x0 x1) := ⟨Nat.zero_le _, fun h => absurd rfl h⟩
theorem Shape.cqheadAdvance x0 x1 : Shape.Statement (.cqheadAdvance x0 x1) := ⟨Nat.zero_le _, fun h => absurd rfl h⟩
theorem Shape.hostRegisterWrite x0 x1 x2 : Shape.Statement (.hostRegisterWrite x0 x1 x2) := ⟨Nat.zero_le _, fun h => absurd rfl h⟩
theorem Shape.i3cWindowRead x0 x1 : Shape.Statement (.i3cWindowRead x0 x1) := ⟨Nat.zero_le _, fun h => absurd rfl h⟩
theorem Shape.i3cLimitWrite x0 x1 x2 : Shape.Statement (.i3cLimitWrite x0 x1 x2) := ⟨Nat.zero_le _, fun h => absurd rfl h⟩
theorem Shape.write x0 x1 : Shape.Statement (.write x0 x1) := ⟨Nat.zero_le _, fun h => absurd rfl h⟩
theorem Shape.copyin x0 x1 : Shape.Statement (.copyin x0 x1) := ⟨Nat.zero_le _, fun h => absurd rfl h⟩
theorem Shape.read x0 x1 : Shape.Statement (.read x0 x1) := ⟨Nat.zero_le _, fun h => absurd rfl h⟩
theorem Shape.copyout x0 x1 : Shape.Statement (.copyout x0 x1) := ⟨Nat.zero_le _, fun h => absurd rfl h⟩
theorem Shape.signal x0 x1 : Shape.Statement (.signal x0 x1) := ⟨Nat.zero_le _, fun h => absurd rfl h⟩
theorem Shape.launch x0 x1 : Shape.Statement (.launch x0 x1) := ⟨Nat.zero_le _, fun h => absurd rfl h⟩
theorem Shape.cntw x0 x1 : Shape.Statement (.cntw x0 x1) := ⟨Nat.zero_le _, fun h => absurd rfl h⟩
theorem Shape.csrw x0 x1 : Shape.Statement (.csrw x0 x1) := ⟨Nat.zero_le _, fun h => absurd rfl h⟩
theorem Shape.tablewSpaceRoot x0 x1 : Shape.Statement (.tablewSpaceRoot x0 x1) := ⟨Nat.zero_le _, fun h => absurd rfl h⟩
theorem Shape.tablewReplicaSet x0 x1 : Shape.Statement (.tablewReplicaSet x0 x1) := ⟨Nat.zero_le _, fun h => absurd rfl h⟩
theorem Shape.tablewMthr x0 x1 : Shape.Statement (.tablewMthr x0 x1) := ⟨Nat.zero_le _, fun h => absurd rfl h⟩
theorem Shape.tablewFramePoolAdd x0 x1 : Shape.Statement (.tablewFramePoolAdd x0 x1) := ⟨Nat.zero_le _, fun h => absurd rfl h⟩
theorem Shape.tablewFramePoolRemove x0 x1 : Shape.Statement (.tablewFramePoolRemove x0 x1) :=
  ⟨Nat.zero_le _, fun h => absurd rfl h⟩
theorem Shape.tablewTablePoolAdd x0 x1 : Shape.Statement (.tablewTablePoolAdd x0 x1) := ⟨Nat.zero_le _, fun h => absurd rfl h⟩
theorem Shape.tablewTablePoolRemove x0 x1 : Shape.Statement (.tablewTablePoolRemove x0 x1) :=
  ⟨Nat.zero_le _, fun h => absurd rfl h⟩
theorem Shape.tablewCommunicator x0 x1 : Shape.Statement (.tablewCommunicator x0 x1) := ⟨Nat.zero_le _, fun h => absurd rfl h⟩
theorem Shape.tablewEndpoint x0 x1 : Shape.Statement (.tablewEndpoint x0 x1) := ⟨Nat.zero_le _, fun h => absurd rfl h⟩
theorem Shape.tablewSaveBases x0 x1 : Shape.Statement (.tablewSaveBases x0 x1) := ⟨Nat.zero_le _, fun h => absurd rfl h⟩
theorem Shape.sluiceLend x0 x1 : Shape.Statement (.sluiceLend x0 x1) := ⟨Nat.zero_le _, fun h => absurd rfl h⟩
theorem Shape.sluiceReclaim x0 x1 : Shape.Statement (.sluiceReclaim x0 x1) := ⟨Nat.zero_le _, fun h => absurd rfl h⟩
theorem Shape.migrate x0 x1 : Shape.Statement (.migrate x0 x1) := ⟨Nat.zero_le _, fun h => absurd rfl h⟩
theorem Shape.preemptGang x0 x1 : Shape.Statement (.preemptGang x0 x1) := ⟨Nat.zero_le _, fun h => absurd rfl h⟩
theorem Shape.preemptPartition x0 x1 : Shape.Statement (.preemptPartition x0 x1) := ⟨Nat.zero_le _, fun h => absurd rfl h⟩
theorem Shape.bankwGreg x0 x1 : Shape.Statement (.bankwGreg x0 x1) := ⟨Nat.zero_le _, fun h => absurd rfl h⟩
theorem Shape.bankwCsr x0 x1 : Shape.Statement (.bankwCsr x0 x1) := ⟨Nat.zero_le _, fun h => absurd rfl h⟩
theorem Shape.bankwTile x0 x1 : Shape.Statement (.bankwTile x0 x1) := ⟨Nat.zero_le _, fun h => absurd rfl h⟩
theorem Shape.resumeRetry x0 x1 : Shape.Statement (.resumeRetry x0 x1) := ⟨Nat.zero_le _, fun h => absurd rfl h⟩
theorem Shape.resumeSkip x0 x1 : Shape.Statement (.resumeSkip x0 x1) := ⟨Nat.zero_le _, fun h => absurd rfl h⟩
theorem Shape.resumeEnd x0 x1 : Shape.Statement (.resumeEnd x0 x1) := ⟨Nat.zero_le _, fun h => absurd rfl h⟩
theorem Shape.evread x0 x1 : Shape.Statement (.evread x0 x1) := ⟨Nat.zero_le _, fun h => absurd rfl h⟩
theorem Shape.snap x0 x1 : Shape.Statement (.snap x0 x1) := ⟨Nat.zero_le _, fun h => absurd rfl h⟩
theorem Shape.parity x0 x1 : Shape.Statement (.parity x0 x1) := ⟨Nat.zero_le _, fun h => absurd rfl h⟩
theorem Shape.restore x0 x1 : Shape.Statement (.restore x0 x1) := ⟨Nat.zero_le _, fun h => absurd rfl h⟩
theorem Shape.rankCreate x0 x1 : Shape.Statement (.rankCreate x0 x1) := ⟨Nat.zero_le _, fun h => absurd rfl h⟩
theorem Shape.rankEnd x0 x1 : Shape.Statement (.rankEnd x0 x1) := ⟨Nat.zero_le _, fun h => absurd rfl h⟩
theorem Shape.invalPage x0 x1 : Shape.Statement (.invalPage x0 x1) := ⟨Nat.zero_le _, fun h => absurd rfl h⟩
theorem Shape.invalSpace x0 x1 : Shape.Statement (.invalSpace x0 x1) := ⟨Nat.zero_le _, fun h => absurd rfl h⟩
theorem Shape.swread x0 x1 : Shape.Statement (.swread x0 x1) := ⟨Nat.zero_le _, fun h => absurd rfl h⟩
theorem Shape.swcopy x0 x1 : Shape.Statement (.swcopy x0 x1) := ⟨Nat.zero_le _, fun h => absurd rfl h⟩
theorem Shape.limitPlimit x0 x1 : Shape.Statement (.limitPlimit x0 x1) := ⟨Nat.zero_le _, fun h => absurd rfl h⟩
theorem Shape.limitTlimit x0 x1 : Shape.Statement (.limitTlimit x0 x1) := ⟨Nat.zero_le _, fun h => absurd rfl h⟩
theorem Shape.limitThreshold x0 x1 : Shape.Statement (.limitThreshold x0 x1) := ⟨Nat.zero_le _, fun h => absurd rfl h⟩
theorem Shape.illegalWord x0 : Shape.Statement (.illegalWord x0) := ⟨Nat.zero_le _, fun h => absurd rfl h⟩
theorem Shape.unknownOp x0 x1 : Shape.Statement (.unknownOp x0 x1) := ⟨Nat.zero_le _, fun h => absurd rfl h⟩

end Sys2Proof.Laws
end

