-- ==== Sys2Proof/Tests/Slice0.lean ====
section
/-! SUPPORT. Tests of the model, each one step on a small state: decoding of words written out from the spec's encodings, the
spec's own worked examples, and for every statement a state and operands that meet its hypotheses. -/

namespace Sys2Proof.Tests

open Sys2Proof Sys2Proof.Machine

set_option Elab.async false

/-! ### Words -/

/-- Every word decodes to its instruction, whose encoding it is. -/
def decodes (l : List (IWord × Instr)) : Bool := l.all fun e => decide (decode e.1 = some e.2 ∧ encode e.2 = [e.1])

theorem test_decode_integer : decodes [
     (0x011461C0, .add 5 6 7), (0x011461C1, .sub 5 6 7), (0x011461C2, .mul 5 6 7), (0x011461C3, .mulh 5 6 7),
     (0x011461C4, .mulhu 5 6 7), (0x011461C5, .div 5 6 7), (0x011461C6, .divu 5 6 7), (0x011461C7, .rem 5 6 7),
     (0x011461C8, .remu 5 6 7), (0x011461C9, .and 5 6 7), (0x011461CA, .or 5 6 7), (0x011461CB, .xor 5 6 7),
     (0x011461CC, .shl 5 6 7), (0x011461CD, .shr 5 6 7), (0x011461CE, .sra 5 6 7), (0x011461CF, .slt 5 6 7),
     (0x011461D0, .sltu 5 6 7), (0x011461D1, .min 5 6 7), (0x011461D2, .max 5 6 7), (0x011461D3, .minu 5 6 7),
     (0x011461D4, .maxu 5 6 7), (0x011461D5, .sel 5 6 7), (0x01146016, .clz 5 6), (0x01146017, .popc 5 6),
     (0x021461C0, .shli 5 6 7), (0x021461C1, .shri 5 6 7), (0x021460C2, .srai 5 6 3), (0x03208FFF, .addi 8 8 (-1)),
     (0x04146FFB, .andi 5 6 (-5)), (0x051460F0, .ori 5 6 0xf0), (0x06146FFF, .xori 5 6 (-1)), (0x07146FFF, .slti 5 6 (-1))] = true := by decide

theorem test_decode_fieldsAndConstants : decodes [
     (0x081460C8, .bfx 5 6 3 8), (0x091460C8, .bfi 5 6 3 8), (0x0A281234, .li 10 0x1234), (0x0B7F0000, .lih 0x7f0000)] = true := by decide

theorem test_decode_branch : decodes [
     (0x0C000002, .b 2), (0x0DFFFFFD, .call (-3)), (0x0E03F000, .jr 63), (0x0F200FFD, .loop 8 (-3)),
     (0x10146FFB, .beq 5 6 (-5)), (0x11146FFB, .bne 5 6 (-5)), (0x12146FFB, .blt 5 6 (-5)), (0x13146FFB, .bge 5 6 (-5)),
     (0x14146FFB, .bltu 5 6 (-5)), (0x150C4FFD, .bgeu 3 4 (-3))] = true := by decide

theorem test_decode_csrAndSystem : decodes [
     (0x16140200, .csrR 5 0x200), (0x17009010, .csrW 0 9 16), (0x18146FFB, .csrS 5 6 (-5)), (0x19146FFB, .csrC 5 6 (-5)),
     (0x1A146000, .tcfg 5 6), (0x1B1461C0, .rng 5 6 7), (0x1B1461C1, .rngRs 5 6 7), (0x1C000000, .step),
     (0x1C000001, .yield), (0x1C000002, .exit), (0x1C000003, .trig), (0x1C000004, .gbar), (0x1D000007, .trap 7),
     (0x1E000042, .sys 0x42), (0x1F146001, .enq 5 6 1)] = true := by decide

theorem test_decode_scalarMemory : decodes [
     (0x20247808, .lds 9 7 2 8), (0x21247808, .sts 9 7 2 8), (0x22248C00, .ldg 9 8 3 0), (0x23248C00, .stg 9 8 3 0),
     (0x24206C00, .ldgAcq 8 6 0), (0x251C6C00, .stgRel 7 6 0), (0x26146403, .ldfK 5 6 1 3), (0x27246802, .ldfC 9 6 2 2),
     (0x28146000, .waitfK 5 6), (0x28187001, .waitfC 6 7), (0x291461C8, .amo 5 6 7 false true 0),
     (0x2A1461C8, .cas 5 6 7 true)] = true := by decide

theorem test_decode_cellsAndPrivileged : decodes [
     (0x2B140000, .acq 5), (0x2B180001, .acqSh 6), (0x2C180000, .rel 6), (0x2D187203, .bind 6 7 8 3),
     (0x2E146000, .lend 5 6), (0x2F146000, .reclaim 5 6), (0x30180000, .tlbi 6), (0x30180001, .tlbiSp 6),
     (0x31146000, .pgsplit 5 6), (0x321461C0, .pgcoll 5 6 7), (0x331461C0, .pgmig 5 6 7)] = true := by decide

theorem test_decode_common : decodes [
     (0xF8000000, .nop .s), (0x39000004, .fence .c 4), (0x3A0C0002, .sigk .c 3 2), (0xBB080004, .waitk .x 2 4),
     (0x7C187000, .arinit .l 6 7 false), (0xBD180001, .arwait .x 6 false true), (0xFE187000, .fset .s 6 7 false),
     (0x3F187000, .fclr .c 6 7 false)] = true := by decide

theorem test_decode_lStream : decodes [
     (0x41007100, .tld 0 7 0x100), (0x42089000, .tldt 2 9 0), (0x430C6004, .tldk 3 6 4), (0x44007040, .cbld 7 64),
     (0x4528B301, .gather 10 11 12 false 1), (0x4628B320, .gred 10 11 12 true 0 false false),
     (0x7028B320, .cpy false 10 11 12 true), (0xF11461C0, .cpyt true 5 6 7 false), (0xF228B000, .tmov true 10 11 false)] = true := by decide

theorem test_decode_elements : decodes [
     (0x811461C1, .vadd 5 6 7 1), (0x820420C1, .vsub 1 2 3 1), (0x83104147, .vmul 4 4 5 7), (0x840420C0, .vfma 1 2 3 0),
     (0x851461C1, .vfms 5 6 7 1), (0x861461C1, .vfnma 5 6 7 1), (0x871461C3, .vmin 5 6 7 true true),
     (0x880420C1, .vmax 1 2 3 false true), (0x89146000, .vabs 5 6), (0x8A146000, .vneg 5 6),
     (0x8B10518A, .vcmp 4 5 6 true 2), (0x8C0420C0, .vsel 1 2 3), (0x8D105000, .vcvt 4 5 0),
     (0x8E0420C1, .viadd 1 2 3 true), (0x8F1461C1, .visub 5 6 7 true), (0x901461C1, .vimul 5 6 7 true),
     (0x910420C0, .vand 1 2 3), (0x921461C0, .vor 5 6 7), (0x931461C0, .vxor 5 6 7), (0x94042000, .vnot 1 2),
     (0x951461C1, .vshl 5 6 7 true), (0x960420C1, .vshr 1 2 3 true), (0x971461C1, .vsra 5 6 7 true)] = true := by decide

theorem test_decode_lanes : decodes [
     (0x98042000, .vmov 1 2), (0x98046001, .vmovG 1 6), (0x991461C0, .vbcr 5 6 7), (0x9A0420C0, .vbcc 1 2 3),
     (0x9B042140, .vrotr 1 2 5), (0x9C146240, .vrotc 5 6 9), (0x9D042007, .vredr 1 2 0 7), (0x9E042008, .vredc 1 2 1 0),
     (0x9F042027, .vscanr 1 2 true 0 7), (0xA0042011, .vscanc 1 2 false 2 1), (0xA10C6000, .viota 3 6),
     (0xA2103182, .vrng 4 3 6 false 2), (0xA3182400, .vcor 6 2 16 0), (0xA4209280, .vdkadd 8 9 10),
     (0xA5209000, .vdkapp 8 9)] = true := by decide

theorem test_decode_masksAndMatrix : decodes [
     (0xA6004000, .mpush 4), (0xA6004001, .mpushNew 4), (0xA7000000, .minv), (0xA8000000, .mpop), (0xA9000005, .bmz 5),
     (0xAA000000, .mlease), (0xAB000000, .mrel), (0xAC0020C0, .mma 0 2 3), (0xAD1461C0, .mmag 5 6 7),
     (0xAE005000, .aalloc 0 5), (0xAF101000, .afree 4 1), (0xB0101000, .azero 4 1), (0xB1103000, .aadd 4 3),
     (0xB228B000, .adrain 10 11), (0xB3184007, .tunpk 6 4 7)] = true := by decide

theorem test_decode_sStream : decodes [
     (0xC104C000, .tst 1 12 0), (0xC204C100, .tstk 1 12 0x100), (0xC328B000, .ast 10 11 false),
     (0xC428B303, .scat 10 11 12 false 3), (0xC528B304, .scata 10 11 12 false 1 0), (0xC628B308, .upd 10 11 12 false 2 0),
     (0xC828B300, .car 10 11 12 false), (0xC91461C0, .crs 5 6 7 false), (0xCA1461C0, .cag 5 6 7 false),
     (0xCB1461C0, .cbc 5 6 7 false)] = true := by decide
/-- Words that no entry defines (R305, R309, R313, R314): unallocated majors and functions, reserved bits, barred codes. -/
theorem test_decode_illegal : ([0x00000000, 0x34000000, 0x011461FF, 0x0E045000, 0x39000005, 0x74000000, 0x1C000005,
    0x0F000FFD, 0x08146FC8, 0x291463D8, 0xFC001001, 0xBC187020, 0x81041005, 0x9D04201F, 0x8B10518F, 0xA2103183, 0xA3FC2400,
    0xAEFC0040, 0xC428B301, 0xC528B30C, 0xC628BF88, 0xC828BFC0] : List IWord).all (fun w => (decode w).isNone) = true := by
  decide

/-- A command with operation `op` and words W2 and W3. -/
def cmdOf (op w2 w3 : Word) : Command := { zeroCommand with w0 := op, w2 := w2, w3 := w3 }

/-- Every row of the Sluice's commands by its operation, and by its selector where it has one (R284, R287, R496, R497). -/
theorem test_decode_commands : ([
    (cmdOf 1 0 0, .write), (cmdOf 2 0 0, .copyin), (cmdOf 3 0 0, .read), (cmdOf 4 0 0, .copyout), (cmdOf 5 0 0, .signal),
    (cmdOf 6 0 0, .launch), (cmdOf 7 0 0, .cntw), (cmdOf 8 0 0, .csrw), (cmdOf 9 1 0, .tablewSpaceRoot),
    (cmdOf 9 2 0, .tablewReplicaSet), (cmdOf 9 3 0, .tablewMthr), (cmdOf 9 4 0, .tablewFramePoolAdd),
    (cmdOf 9 4 2, .tablewFramePoolRemove), (cmdOf 9 5 0, .tablewTablePoolAdd), (cmdOf 9 5 2, .tablewTablePoolRemove),
    (cmdOf 9 6 0, .tablewCommunicator), (cmdOf 9 7 0, .tablewEndpoint), (cmdOf 9 8 0, .tablewSaveBases),
    (cmdOf 10 0 0, .sluiceLend), (cmdOf 10 1 0, .sluiceReclaim), (cmdOf 11 0 0, .migrate), (cmdOf 12 0 0, .preemptGang),
    (cmdOf 12 1 0, .preemptPartition), (cmdOf 13 0 0, .bankwGreg), (cmdOf 13 0 1, .bankwCsr), (cmdOf 13 0 2, .bankwTile),
    (cmdOf 14 0 0, .resumeRetry), (cmdOf 14 0 1, .resumeSkip), (cmdOf 14 0 2, .resumeEnd), (cmdOf 15 0 0, .evread),
    (cmdOf 16 0 0, .snap), (cmdOf 17 0 0, .parity), (cmdOf 18 0 0, .restore), (cmdOf 19 0 0, .rankCreate),
    (cmdOf 19 1 0, .rankEnd), (cmdOf 20 0 0, .invalPage), (cmdOf 20 0 1, .invalSpace), (cmdOf 21 0 0, .swread),
    (cmdOf 22 0 0, .swcopy), (cmdOf 23 0 0, .limitPlimit), (cmdOf 23 1 0, .limitTlimit),
    (cmdOf 23 0x1307 0, .limitThreshold), (cmdOf 24 0 0, .unknownOp), (cmdOf 13 0 3, .unknownOp),
    (cmdOf 23 0x1308 0, .unknownOp)] : List (Command × (Pkg → Command → Instr))).all
      (fun e => decide (decodeCommand 0 e.1 = e.2 0 e.1)) = true := by
  decide

/-- One ill-formed term for each check, and the neighbour that passes it. -/
theorem test_wf_refuses : ([
    (.bfx 1 2 63 1, .bfx 1 2 62 1), (.bfi 1 2 1 63, .bfi 1 2 0 63), (.loop 0 1, .loop 1 1), (.amo 1 2 3 false true 1, .amo 1 2 3 false false 1),
    (.amo 1 2 3 true true 0, .amo 1 2 3 true true 2), (.fence .c 5, .fence .c 4), (.arinit .c 1 2 true, .arinit .s 1 2 true),
    (.arwait .x 1 true false, .arwait .l 1 true false), (.fset .c 1 2 true, .fset .l 1 2 true), (.fclr .x 1 2 true, .fclr .s 1 2 true),
    (.gather 1 2 63 false 0, .gather 1 2 62 false 0), (.gred 1 2 63 false 0 true true, .gred 1 2 62 false 0 true true),
    (.cpyt false 1 2 63 false, .cpyt false 1 2 62 false), (.vadd 1 2 3 5, .vadd 1 2 3 4), (.vsub 1 2 3 6, .vsub 1 2 3 7),
    (.vmul 1 2 3 5, .vmul 1 2 3 0), (.vfma 1 2 3 6, .vfma 1 2 3 1), (.vfms 1 2 3 5, .vfms 1 2 3 2), (.vfnma 1 2 3 6, .vfnma 1 2 3 3),
    (.vcmp 1 2 3 false 7, .vcmp 1 2 3 false 6), (.vcvt 1 2 5, .vcvt 1 2 4), (.vredr 1 2 3 0, .vredr 1 2 2 0),
    (.vredc 1 2 0 4, .vredc 1 2 0 3), (.vscanr 1 2 false 3 7, .vscanr 1 2 false 2 7), (.vscanc 1 2 true 0 5, .vscanc 1 2 true 0 7),
    (.vrng 1 2 3 false 3, .vrng 1 2 3 false 2), (.vrng 1 2 63 false 1, .vrng 1 2 63 false 0), (.vcor 63 2 0 0, .vcor 63 2 0 2),
    (.vcor 1 63 0 7, .vcor 1 62 0 7), (.aalloc 63 1, .aalloc 63 0), (.afree 1 63, .afree 0 63), (.azero 32 32, .azero 32 31),
    (.tunpk 1 2 5, .tunpk 1 2 7), (.scat 1 2 3 false 1, .scat 1 2 3 false 2), (.scata 1 2 3 false 3 0, .scata 1 2 3 false 2 0),
    (.scata 1 2 3 false 0 1, .scata 1 2 3 false 0 3), (.upd 1 2 62 false 0 0, .upd 1 2 61 false 0 0), (.upd 1 2 3 false 3 0, .upd 1 2 3 false 2 0),
    (.upd 1 2 3 false 0 1, .upd 1 2 3 false 0 0), (.car 1 2 63 false, .car 1 2 62 false), (.crs 1 2 63 true, .crs 1 2 62 true),
    (.cag 1 2 63 false, .cag 1 2 62 false), (.cbc 1 2 63 false, .cbc 1 2 62 false), (.chunkArrive 0 48 0, .chunkArrive 0 47 0),
    (.chunkFault 0 48, .chunkFault 0 47), (.commandRelocate 0 63 0, .commandRelocate 0 0 0), (.startStepFail 0 0xFF 0, .startStepFail 0 0xFE 0),
    (.startStepFail 0 0 0, .startStepFail 0 1 0), (.hostRegisterWrite 0 0x4000 1, .hostRegisterWrite 0 0x4008 1),
    (.hostRegisterWrite 0 0x4020 1, .hostRegisterWrite 0 0x4018 1), (.write 0 (cmdOf 2 0 0), .write 0 (cmdOf 1 0 0)),
    (.resumeSkip 0 (cmdOf 14 0 3), .resumeSkip 0 (cmdOf 14 0 1)), (.unknownOp 0 (cmdOf 1 0 0), .unknownOp 0 (cmdOf 0 0 0))] :
      List (Instr × Instr)).all (fun e => !e.1.wf && e.2.wf) = true := by
  decide

/-! ### A small fabric -/

/-- The strand of a fabric with one word to run: identity 2, rank 0, gang 1, bank 0 of die 0, privileged, 64 tiles. -/
def fresh : Strand := strandAt soloRank soloNest 1 0 0 0 0

/-- The strand of the tests: as `fresh`, with every lane LFSR zero. -/
def hero : Strand := { fresh with lanes := 0 }

/-- The fabric of the tests with strand 2 as given: 1 GiB of private space mapped one to one, one LS segment bound. -/
def place (m : Strand) : State :=
  { State.reset.solo 0 with
    strands := [(2, m)]
    cur := some (2, .c)
    turns := []
    lsSeg := [(0, ⟨0, 1, 0, 0, .active⟩)] }

def demo : State := place hero

/-- The strand as a client of the memory system. -/
def client : Client :=
  { rank := 0, job := 0, vrank := 0, nrankm1 := 0, endp := 0, home := 0, dmap := Vector.replicate 32 0, die := 0, place := some 0
    gang := 1, lp := 0 }

/-- The strand with registers set. -/
def regs (l : List (Field × Word)) : Strand := l.foldl (fun m e => m.setReg e.1 e.2) hero

/-- The next state, if there is one. -/
def next (i : Instr) (s : State) : Option State :=
  match exec i s with
  | .next t => some t
  | _ => none

/-- The next state's strand 2, if there is one. -/
def after (i : Instr) (s : State) : Option Strand := (next i s).bind fun t => t.strand 2

/-- What an instruction writes to `g5` with `g6` and `g7` as given. -/
def gives (i : Instr) (a b : Word) : Option Word := (after i (place (regs [(6, a), (7, b)]))).map fun m => m.reg 5

theorem ready (m : Strand) (h : m.canIssue = true) : Ready (place m) 2 m := ⟨rfl, rfl, h⟩

theorem witness_Ready : Ready demo 2 hero ∧ ReadyAs demo 2 hero client := by
  refine ⟨⟨rfl, rfl, ?_⟩, ⟨rfl, rfl, ?_⟩, ?_⟩ <;> rfl

/-! ### Integer words: the spec's examples -/

theorem test_addsub : gives (.add 5 6 7) (-1) 2 = some 1 ∧ gives (.sub 5 6 7) 2 3 = some (-1) ∧
    gives (.addi 5 6 (-1)) 0 0 = some (-1) := by decide

theorem test_mul : gives (.mulh 5 6 7) (-1) 1 = some (-1) ∧ gives (.mulhu 5 6 7) (-1) 1 = some 0 ∧
    gives (.mulhu 5 6 7) (BitVec.ofNat 64 (2 ^ 63)) 4 = some 2 ∧ gives (.mul 5 6 7) (BitVec.ofNat 64 (2 ^ 63)) 4 = some 0 := by
  decide

theorem test_div : gives (.div 5 6 7) (-7) 2 = some (-3) ∧ gives (.divu 5 6 7) (-7) 2 = some 0x7FFFFFFFFFFFFFFC ∧
    gives (.div 5 6 7) (BitVec.ofNat 64 (2 ^ 63)) (-1) = some (BitVec.ofNat 64 (2 ^ 63)) ∧ gives (.div 5 6 7) 9 0 = some (-1) ∧
    gives (.divu 5 6 7) 9 0 = some (-1) := by decide

theorem test_rem : gives (.rem 5 6 7) (-7) 2 = some (-1) ∧ gives (.remu 5 6 7) (-7) 2 = some 1 ∧
    gives (.rem 5 6 7) (BitVec.ofNat 64 (2 ^ 63)) (-1) = some 0 ∧ gives (.rem 5 6 7) 9 0 = some 9 ∧
    gives (.remu 5 6 7) 9 0 = some 9 := by decide

theorem test_logic : gives (.andi 5 6 (-16)) 0xFF 0 = some 0xF0 ∧ gives (.xori 5 6 (-1)) 5 0 = some (-6) ∧
    gives (.ori 5 6 0xF0) 1 0 = some 0xF1 ∧ gives (.and 5 6 7) 12 10 = some 8 ∧ gives (.or 5 6 7) 12 10 = some 14 ∧
    gives (.xor 5 6 7) 12 10 = some 6 := by decide

theorem test_shift : gives (.srai 5 6 1) (-7) 0 = some (-4) ∧ gives (.sra 5 6 7) (-7) 65 = some (-4) ∧
    gives (.shri 5 6 63) (-1) 0 = some 1 ∧ gives (.shr 5 6 7) (-1) 127 = some 1 ∧ gives (.shli 5 6 63) 3 0 = some (BitVec.ofNat 64 (2 ^ 63)) ∧
    gives (.shl 5 6 7) 3 64 = some 3 := by decide

theorem test_compare : gives (.slt 5 6 7) (-1) 1 = some 1 ∧ gives (.sltu 5 6 7) (-1) 1 = some 0 ∧
    gives (.slti 5 6 (-1)) 0 0 = some 0 ∧ gives (.max 5 6 7) (-1) 1 = some 1 ∧ gives (.maxu 5 6 7) (-1) 1 = some (-1) ∧
    gives (.min 5 6 7) (-1) 1 = some (-1) ∧ gives (.minu 5 6 7) (-1) 1 = some 1 := by decide

theorem test_bits : gives (.clz 5 6) 0 0 = some 64 ∧ gives (.clz 5 6) (-1) 0 = some 0 ∧ gives (.popc 5 6) 0xFF 0 = some 8 ∧
    gives (.bfx 5 6 3 8) 0xABC 0 = some 0xA ∧ gives (.bfi 5 6 3 8) 0x1F 0 = some 0xF00 ∧ gives (.sel 5 6 7) 1 2 = some 2 := by
  decide

/-- R413: with `g6` = 0 and `g7` = 1 the plain form returns 0x57B6_802B. -/
theorem test_rng : gives (.rng 5 6 7) 0 1 = some 0x57B6802B ∧ gives (.rngRs 5 6 7) 0 1 = some 0x57B6802B := by decide

/-- R302: `LI g10, 0x1234; LIH 0x7F_0000` gives 0x0000_7F00_0000_1234; an LIH after no LI raises ILLEGAL. -/
theorem test_li :
    (after (.li 10 0x1234) demo).map (fun m => m.reg 10) = some 0x1234 ∧
    (after (.lih 0x7F0000) (place { regs [(10, 0x1234)] with
      c := { hero.c with pos := 1 }, walk := [⟨0, 0, 0x0A281234, 0, true⟩] })).map (fun m => m.reg 10) =
        some 0x00007F0000001234 ∧
    (after (.lih 0x7F0000) demo).map (fun m => m.frame[0]) = some 0x8001 := by decide

theorem witness_IntegerWords : ∃ v, IntResult (seedOf demo hero) hero.reg (.bfx 5 6 62 1) 5 v ∧ (Instr.bfx 5 6 62 1).wf = true ∧
    next (.bfx 5 6 62 1) demo = some (demo.setStrand 2 ((hero.setReg 5 v).retire .c)) :=
  ⟨_, .bfx 5 6 62 1, by decide, rfl⟩

theorem witness_Lih :
    ({ hero with c := { hero.c with pos := 1 }, walk := [⟨0, 0, 0x0A281234, 0, true⟩] } : Strand).lihTarget = some 10 ∧
    hero.lihTarget = none := by decide

theorem witness_IntegerWordsFrame : ∃ v t, IntResult 0 hero.reg (.clz 0 6) 0 v ∧ next (.clz 0 6) demo = some t :=
  ⟨_, _, .clz 0 6, rfl⟩

/-! ### Steps, checks, faults -/

/-- R45, R303: the step of a fabric whose next word is ADD runs ADD on the state in which the word has been read. -/
theorem witness_StepRunsDecodedWord :
    let s := State.reset.withFetchWord 32 0x011461C0
    let s0 := State.settle { s with turns := [] }
    let f := State.fetch { s0 with cur := some (2, .c) } 2 fresh .c
    let w : WalkWord := ⟨0, wd soloText, 0x011461C0, 0, false⟩
    let m1 : Strand := { fresh with walk := [w] }
    s.turns = .stream 0 .c :: [] ∧ s0.onBank (BitVec.toNat (0 : Loc)) = some (2, fresh) ∧ s0.strand 2 = some fresh ∧
    fresh.canIssue = true ∧ s0.stepOpen 2 fresh = false ∧ (fresh.stream .c).wait = .none ∧ fresh.slipOk .c = true ∧
    f.2 = .ok w ∧ f.1.strand 2 = some m1 ∧ tagOf w.bits = .c ∧ decode w.bits = some (.add 5 6 7) ∧
    m1.hazard .c (.add 5 6 7) = false := by decide +kernel

theorem witness_StepOfSluiceAndEvent :
    let s : State := { State.reset with
      pkgs := [(0, { Package.up with cqset := true, cqsize := 16, nqset := true, nqsize := 16, sqtail := 1 })]
      turns := [.sluice 0] }
    let s0 := State.settle { s with turns := [] }
    (s0.pkg 0).accepts = true ∧ (s0.pkg 0).sqhead ≠ (s0.pkg 0).sqtail ∧
    ({ s with turns := [.event .flitForward 0] } : State).turns = .event .flitForward 0 :: [] := by decide +kernel

theorem witness_FetchReadsFourBytes :
    let s := State.reset.withFetchWord 32 0x011461C0
    let a := s.access client fresh.c.pc 4 false
    (State.fetch s 2 { fresh with walk := [⟨0, 0, 7, 0, false⟩] } .c).2 = .ok ⟨0, 0, 7, 0, false⟩ ∧
    fresh.wordAt (fresh.stream .c).pos = none ∧ fld (fresh.stream .c).pc 56 52 ≠ 31 ∧ s.clientOf fresh = some client ∧
    a.2 = .ok ⟨0, 0, 0x100000, false, true⟩ ∧ a.1.strand 2 = some fresh := by decide +kernel

theorem witness_StepKeepsMemoryCanonical :
    MemOk (State.reset.withFetchWord 32 0x2324_8C00) ∧ Goes (State.reset.withFetchWord 32 0x23248C00) := by
  refine ⟨?_, _, rfl⟩
  unfold MemOk
  decide +kernel

/-- R305, R52, R315: ILLEGAL, SLOT and PRIV, with the cause in FSTAT [7:0], FV in bit 15. -/
theorem test_checks :
    (after (.illegalWord 0x74000000) demo).map (fun m => m.frame[0]) = some 0x8101 ∧
    (after .exit (place { hero with c := { hero.c with delay := 1 } })).map (fun m => m.frame[0]) = some 0x8002 ∧
    (after (.tlbi 6) (place { hero with priv := false })).map (fun m => m.frame[0]) = some 0x8003 := by decide +kernel

theorem witness_ChecksComeBeforeTheEntry :
    Barred (.waitk .x 1 2) .x ∧ Privileged (.lend 1 2) ∧
    Ready (place { hero with x := { hero.x with delay := 2 } }) 2 { hero with x := { hero.x with delay := 2 } } ∧
    Ready (place { hero with priv := false }) 2 { hero with priv := false } :=
  ⟨.waitk .x 1 2, .lend 1 2, ready _ rfl, ready _ rfl⟩

theorem witness_FaultIsTaken : demo.strand 2 = some hero ∧ hero.place = some 0 ∧ hero.noted = [] ∧ hero.busy = false ∧
    hero.state ≠ .faulted ∧ hero.state ≠ .ended ∧
    (demo.rank? hero.rank).map (fun r => decide (r.evq.length < 1024)) = some true := by decide +kernel

/-- A strand with an executed word that a slower stream has not passed is busy: its fault is noted, and taken when it is not. -/
theorem witness_FaultsAwaitWordsInFlight :
    let busy : Strand := { hero with c := { hero.c with wait := .reply 7 } }
    let n : Noted := ⟨true, 0, 0, 0, .c, 0x01, 0, 0⟩
    ((place busy).strand 2 = some busy ∧ busy.busy = true) ∧
    ((place { busy with noted := [n] }).onBank (BitVec.toNat (0 : Loc)) = some (2, { busy with noted := [n] }) ∧
      ({ busy with noted := [n] } : Strand).recorded = some n) ∧
    (({ hero with noted := [n] } : Strand).recorded = some n ∧ ({ hero with noted := [n] } : Strand).busy = false) := by
  decide +kernel

/-! ### Branches and CSRs -/

theorem witness_BranchesResolve :
    Ready demo 2 hero ∧ hero.boq.length < hero.win.toNat ∧ hero.c.delay = 0 ∧ hero.x.delay = 0 ∧ (hero.reg 0).toNat % 4 = 0 ∧
    CondTaken hero.reg (.bltu 5 6 1) 1 (decide ((hero.reg 5).toNat < (hero.reg 6).toNat)) :=
  ⟨ready _ rfl, by decide, rfl, rfl, by decide, .bltu 5 6 1⟩

theorem witness_ResolvedBranchHasTwoDelaySlots :
    (∃ j, j ≠ Stream.c ∧ (hero.stream j).pos ≤ (hero.stream .c).pos) ∧ ((regs [(6, 2)]).reg 6).toNat % 4 ≠ 0 ∧
    ({ hero with win := 0 } : Strand).win.toNat ≤ hero.boq.length ∧
    Ready (place { hero with win := 0 }) 2 { hero with win := 0 } ∧ ({ hero with win := 0 } : Strand).c.delay = 0 ∧
    ({ hero with win := 0 } : Strand).x.delay = 0 := by
  refine ⟨⟨.l, ?_, ?_⟩, ?_, ?_, ready _ rfl, rfl, rfl⟩ <;> decide

/-- R349, R356, R393, R354: outcomes, links and counts. -/
theorem test_branches :
    ((after (.bltu 6 7 (-3)) (place (regs [(6, 1), (7, -1)]))).map fun m => m.boq) = some [⟨0, true, wd (soloText - 12)⟩] ∧
    ((after (.blt 6 7 (-3)) (place (regs [(6, 1), (7, -1)]))).map fun m => m.boq) = some [⟨0, false, wd (soloText + 12)⟩] ∧
    ((after (.call 100) demo).map fun m => (m.reg 63, m.c.target)) = some (wd (soloText + 12), wd (soloText + 400)) ∧
    ((after (.loop 8 (-3)) (place { regs [(8, 1)] with nrot := 3 })).map fun m => (m.reg 8, m.rrb, m.c.target)) =
      some (0, 2, wd (soloText + 12)) ∧
    ((after (.bmz 5) (place { hero with masks := [0] })).map fun m => m.x.target) = some (wd (soloText + 20)) ∧
    ((after (.jr 6) (place (regs [(6, 0x100002)]))).map fun m => (m.frame[0], m.frame[1])) = some (0x8031, 0x100002) := by
  decide +kernel

theorem witness_CsrWords :
    CsrForm hero (.csrR 5 0x200) 5 0x200 false (fun v => v) 0 ∧
    CsrForm hero (.csrW 5 0 0x202) 5 0x202 true (fun _ => hero.reg 0) (hero.reg 0) ∧
    csrAllocated 0x200 = true ∧ csrAllocated 0x202 = true ∧ csrPrivWrite 0x202 = false ∧ csrAllocated 0x0FF = false ∧
    csrPrivWrite 0x480 = true ∧ demo.csrRead 2 hero soloRank (hero.rotAt .c) 0x200 = some 0 ∧
    demo.csrRead 2 hero soloRank (hero.rotAt .c) 0x202 = some 0 ∧
    Ready (place { hero with priv := false }) 2 { hero with priv := false } :=
  ⟨.r 5 0x200, .w 5 0 0x202, by decide, by decide, by decide, by decide, by decide, by decide, by decide, ready _ rfl⟩

/-- R48, R370: WIN reads as the clamped value; CSR.R gives the old value. -/
theorem test_csr :
    (after (.csrW 5 6 0x010) (place (regs [(6, 5)]))).map (fun m => (m.reg 5, m.win)) = some (256, 16) ∧
    (after (.csrS 5 6 0x202) (place (regs [(6, 0x11)]))).map (fun m => (m.reg 5, m.rnd, m.ieee)) = some (0, 1, true) ∧
    (after (.csrC 5 6 0x202) (place { regs [(6, 1)] with rnd := 3 })).map (fun m => (m.reg 5, m.rnd)) = some (3, 2) ∧
    (after (.csrR 5 0x200) demo).map (fun m => m.reg 5) = some 0 := by decide +kernel

/-- Every register of `CsrKeeps`, at the ends of its range, written and read. -/
theorem witness_CsrHoldsWhatIsWritten : ([0x010, 0x012, 0x015, 0x01E, 0x100, 0x13F, 0x140, 0x17F, 0x201, 0x202, 0x204, 0x205, 0x300, 0x3FF, 0x481,
    0x49D, 0x500, 0x510, 0x511, 0x610, 0x61E, 0x611, 0x61F] : List Nat).all (fun n =>
      match demo.csrWrite 2 hero soloRank 0 n 0 0 with
      | .inr _ => true
      | _ => false) = true ∧ hero.slot 0 0 = some 0 ∧ hero.slot 0 63 = some 63 := by decide +kernel

/-- The ends of the ranges of the registers without a writable field. -/
theorem witness_CsrReadOnly : ([0x000, 0x008, 0x011, 0x013, 0x014, 0x016, 0x01D, 0x01F, 0x200, 0x203, 0x206, 0x400, 0x47F, 0x480,
    0x49E, 0x49F, 0x501, 0x508, 0x580, 0x5FF, 0x600, 0x601] : List Nat).all (fun n =>
      csrAllocated n && !csrWritable n && (demo.csrRead 2 hero soloRank 0 n).isSome) = true ∧
    Ready demo 2 hero ∧ hero.priv = true ∧ CsrForm hero (.csrW 5 0 0x49F) 5 0x49F true (fun _ => hero.reg 0) (hero.reg 0) :=
  ⟨by decide +kernel, ready _ rfl, rfl, .w 5 0 0x49F⟩

/-- R75: a write of LOC changes nothing but the destination. -/
theorem test_read_only : next (.csrW 5 6 0x002) (place (regs [(6, 9)])) =
    some ((place (regs [(6, 9)])).upd 2 fun k => (k.setReg 5 0).retire .c) := by decide +kernel

/-! ### Words that change their strand alone, and waits -/

theorem witness_StrandWords :
    (∃ n, StrandWord demo 2 hero (.nop .x) n ∧ next (.nop .x) demo = some (demo.setStrand 2 n)) ∧
    (∃ n, StrandWord demo 2 hero (.fence .l 4) n ∧ next (.fence .l 4) demo = some (demo.setStrand 2 n)) ∧
    (∃ n, StrandWord demo 2 (regs []) (.tcfg 63 0) n ∧ next (.tcfg 63 0) demo = some (demo.setStrand 2 n)) ∧
    (∃ n, StrandWord demo 2 hero (.sigk .s 15 0xFFFF) n ∧ next (.sigk .s 15 0xFFFF) demo = some (demo.setStrand 2 n)) ∧
    (∃ n, StrandWord demo 2 hero (.waitk .c 0 0) n ∧ next (.waitk .c 0 0) demo = some (demo.setStrand 2 n)) ∧
    (∃ n, StrandWord demo 2 hero (.mpush 4) n ∧ next (.mpush 4) demo = some (demo.setStrand 2 n)) ∧
    (∃ n, StrandWord demo 2 hero (.mpushNew 4) n ∧ next (.mpushNew 4) demo = some (demo.setStrand 2 n)) ∧
    (∃ n, StrandWord demo 2 hero .minv n ∧ next .minv demo = some (demo.setStrand 2 n)) := by
  refine ⟨⟨_, .nop .x, ?_⟩, ⟨_, .fence .l 4 ?_, ?_⟩, ⟨_, .tcfg 63 0 63 ?_ ?_, ?_⟩, ⟨_, .sigk .s 15 0xFFFF ?_ ?_, ?_⟩,
    ⟨_, .waitk .c 0 0 ?_ ?_, ?_⟩, ⟨_, .mpush 4 _ ?_ rfl, ?_⟩, ⟨_, .mpushNew 4 _ ?_ rfl, ?_⟩, ⟨_, .minvOne _ rfl, ?_⟩⟩ <;>
    first | rfl | decide +kernel

theorem witness_MaskWords :
    let m : Strand := { hero with masks := [5, 7] }
    (∃ n, StrandWord (place m) 2 m .minv n ∧ next .minv (place m) = some ((place m).setStrand 2 n)) ∧
    (∃ n, StrandWord (place m) 2 m .mpop n ∧ next .mpop (place m) = some ((place m).setStrand 2 n)) := by
  refine ⟨⟨_, .minv _ _ _ rfl, ?_⟩, ⟨_, .mpop _ _ _ rfl, ?_⟩⟩ <;> rfl

theorem witness_WaitingWords :
    let m : Strand := hero.setToken 3 0xFFFF
    (∃ n, WaitingWord m (.sigk .l 3 1) n ∧ next (.sigk .l 3 1) (place m) = some ((place m).setStrand 2 n)) ∧
    (∃ n, WaitingWord hero (.waitk .x 3 1) n ∧ next (.waitk .x 3 1) demo = some (demo.setStrand 2 n)) ∧
    (∃ n, WaitingWord hero .step n ∧ next .step demo = some (demo.setStrand 2 n)) ∧
    (∃ n, WaitingWord hero .exit n ∧ next .exit demo = some (demo.setStrand 2 n)) := by
  refine ⟨⟨_, .sigk .l 3 1 ?_ ?_, ?_⟩, ⟨_, .waitk .x 3 1 ?_ ?_, ?_⟩, ⟨_, .step ?_, ?_⟩, ⟨_, .exit ?_, ?_⟩⟩ <;> first | rfl | decide +kernel

/-- A strand whose stream `t` waits at a word. -/
def waitsAt (t : Stream) (w : Wait) (bits : IWord) : Strand := { hero with walk := [⟨0, 0, bits, 0, false⟩] }.setWait t w

/-- R476, R423: a wait on a counter's value, or on its room, ends with the word's effect. -/
theorem witness_WaitsEnd :
    let a := (waitsAt .x .token 0xBB080004).setToken 2 4
    let b := (waitsAt .c .room 0x3A0C0002).setToken 3 0xFFFD
    (place a).waiting 0 .x .token = some (2, a, .waitk .x 2 4) ∧ (4 : BitVec 16).toNat ≤ (a.token 2).toNat ∧
    (after (.waitkSatisfied 0 .x) (place a)).map (fun m => (m.token 2, m.x.pos)) = some (0, 1) ∧
    (place b).waiting 0 .c .room = some (2, b, .sigk .c 3 2) ∧ (b.token 3).toNat + 2 < 2 ^ 16 ∧
    (after (.sigkRoom 0 .c) (place b)).map (fun m => (m.token 3, m.c.pos)) = some (0xFFFF, 1) := by decide +kernel

/-! ### Memory words -/

/-- The base of the LS region in domain 31. -/
def ls : Word := 0x01F0000000000000

/-- `g6` names LS, `g7` is a datum. -/
def low : Strand := regs [(5, 0x99), (6, ls), (7, 0x80)]

/-- As `low`, with sixteen full-empty bits set. -/
def filled : State := { place low with fe := natRange 0 16 }

theorem witness_PadWords :
    (∃ t, PadWord (place low) 2 low client (.lds 5 6 3 0) t ∧ next (.lds 5 6 3 0) (place low) = some t) ∧
    (∃ t, PadWord (place low) 2 low client (.sts 7 6 0 15) t ∧ next (.sts 7 6 0 15) (place low) = some t) ∧
    (∃ t, PadWord (place low) 2 low client (.amo 5 6 7 false true 0) t ∧ next (.amo 5 6 7 false true 0) (place low) = some t) ∧
    (∃ t, PadWord (place low) 2 low client (.cas 0 6 7 false) t ∧ next (.cas 0 6 7 false) (place low) = some t) ∧
    (∃ t, PadWord (place low) 2 low client (.cas 5 6 7 true) t ∧ next (.cas 5 6 7 true) (place low) = some t) ∧
    (∃ t, PadWord (place low) 2 low client (.arinit .l 6 7 true) t ∧ next (.arinit .l 6 7 true) (place low) = some t) ∧
    (∃ t, PadWord (place low) 2 low client (.arwait .x 6 false false) t ∧ next (.arwait .x 6 false false) (place low) = some t) ∧
    (∃ t, PadWord (place low) 2 low client (.fset .s 6 7 false) t ∧ next (.fset .s 6 7 false) (place low) = some t) ∧
    (∃ t, PadWord filled 2 low client (.fclr .c 6 7 false) t ∧ next (.fclr .c 6 7 false) filled = some t) ∧
    (∃ t, PadWord filled 2 low client (.waitfK 6 7) t ∧ next (.waitfK 6 7) filled = some t) ∧
    (∃ t, PadWord filled 2 low client (.waitfC 6 7) t ∧ next (.waitfC 6 7) filled = some t) := by
  refine ⟨⟨_, .lds 5 6 3 0 _ ⟨?_, ?_, ?_, rfl⟩, ?_⟩, ⟨_, .sts 7 6 0 15 _ ⟨?_, ?_, ?_, rfl⟩, ?_⟩,
    ⟨_, .amo 5 6 7 false true 0 _ ⟨?_, ?_, ?_, rfl⟩, ?_⟩, ⟨_, .casTaken 0 6 7 false _ ⟨?_, ?_, ?_, rfl⟩ ?_, ?_⟩,
    ⟨_, .casKept 5 6 7 true _ ⟨?_, ?_, ?_, rfl⟩ ?_, ?_⟩, ⟨_, .arinit .l 6 7 true _ ?_ ?_ ?_ rfl, ?_⟩,
    ⟨_, .arwait .x 6 false false _ ?_ rfl ?_, ?_⟩, ⟨_, .fset .s 6 7 false _ rfl ?_, ?_⟩, ⟨_, .fclr .c 6 7 false _ rfl ?_, ?_⟩,
    ⟨_, .waitfK 6 7 _ rfl ?_, ?_⟩, ⟨_, .waitfC 6 7 _ rfl ?_, ?_⟩⟩ <;> first | rfl | decide +kernel

theorem witness_LdfWords :
    (∃ t, PadWord filled 2 low client (.ldfK 5 6 2 3) t ∧ next (.ldfK 5 6 2 3) filled = some t) ∧
    (∃ t, PadWord filled 2 low client (.ldfC 5 6 2 3) t ∧ next (.ldfC 5 6 2 3) filled = some t) := by
  refine ⟨⟨_, .ldfK 5 6 2 3 (lsAddr 0 0 12) 0 ?_ ?_ ?_ ?_ ?_, ?_⟩, ⟨_, .ldfC 5 6 2 3 (lsAddr 0 0 12) 0 ?_ ?_ ?_ ?_ ?_, ?_⟩⟩ <;>
    decide +kernel

theorem witness_FullEmptyRange : (place low).feRange client (low.reg 6) (low.reg 7) = .inr (natRange 0 8) ∧
    low.streamQuiet .c = true ∧ (next (.fset .c 6 7 false) (place low)).isSome = true ∧
    (next (.fclr .c 6 7 false) (place low)).isSome = true := by decide +kernel

/-- `g6` names private memory in reach of the tests' page tables. -/
def far : Strand := regs [(6, 0x200000), (7, 5)]

theorem witness_DeviceWords :
    (∃ t, DeviceWord (place far) 2 far client (.ldg 5 6 3 0) t ∧ next (.ldg 5 6 3 0) (place far) = some t) ∧
    (∃ t, DeviceWord (place far) 2 far client (.stg 7 6 0 (-1)) t ∧ next (.stg 7 6 0 (-1)) (place far) = some t) ∧
    (∃ t, DeviceWord (place far) 2 far client (.ldgAcq 5 6 8) t ∧ next (.ldgAcq 5 6 8) (place far) = some t) ∧
    (∃ t, DeviceWord (place far) 2 far client (.stgRel 7 6 0) t ∧ next (.stgRel 7 6 0) (place far) = some t) ∧
    (∃ t, DeviceWord (place far) 2 far client (.amo 5 6 7 false false 0) t ∧ next (.amo 5 6 7 false false 0) (place far) = some t) ∧
    (∃ t, DeviceWord (place far) 2 far client (.cas 5 6 7 true) t ∧ next (.cas 5 6 7 true) (place far) = some t) := by
  refine ⟨⟨_, .ldg 5 6 3 0 _ _ ?_ ⟨?_, ?_, ?_, _, _, _, _, rfl, ?_, ?_, rfl, ?_, rfl⟩, ?_⟩,
    ⟨_, .stg 7 6 0 (-1) _ _ ?_ ⟨?_, ?_, ?_, _, _, _, _, rfl, ?_, ?_, rfl, ?_, rfl⟩, ?_⟩,
    ⟨_, .ldgAcq 5 6 8 _ _ ?_ ⟨?_, ?_, ?_, _, _, _, _, rfl, ?_, ?_, rfl, ?_, rfl⟩, ?_⟩,
    ⟨_, .stgRel 7 6 0 _ _ ?_ ?_ ⟨?_, ?_, ?_, _, _, _, _, rfl, ?_, ?_, rfl, ?_, rfl⟩, ?_⟩,
    ⟨_, .amo 5 6 7 false false 0 _ _ ?_ ⟨?_, ?_, ?_, _, _, _, _, rfl, ?_, ?_, rfl, ?_, rfl⟩, ?_⟩,
    ⟨_, .cas 5 6 7 true _ _ ?_ ⟨?_, ?_, ?_, _, _, _, _, rfl, ?_, ?_, rfl, ?_, rfl⟩, ?_⟩⟩ <;> first | rfl | decide

theorem witness_MemoryWordsFrame :
    MemOk (place far) ∧ StoreForm far (.stg 7 6 3 0) 0x200000 8 ∧ LoadForm (.ldg 5 6 3 0) 5 ∧
    storesAt (place far) client 0x200000 = some 0x200000 ∧ (∃ t, next (.stg 7 6 3 0) (place far) = some t) ∧
    ∃ t, next (.ldg 5 6 3 0) (place far) = some t := by
  refine ⟨?_, .stg 7 6 3 0, .ldg 5 6 3 0, ?_, ⟨_, rfl⟩, _, rfl⟩
  · unfold MemOk
    decide +kernel
  · decide +kernel

/-- `g6` names memory of another die, through domain 1, and `g7` a datum. -/
def afar : Strand := { regs [(6, 0x10000000200000), (7, 5)] with dmap := vset hero.dmap 1 (2 ^ 63 + 1024) }

def afarClient : Client := { client with dmap := afar.dmap }

/-- The space's die before it moved to die 1024; a leaf that maps its first GiB to die 1024. -/
def former : State := { place far with dies := [(0, { soloDie with forwards := [⟨0, 1024, true⟩] })] }
def peered : State := { place far with mem := Memory.writeNat (place far).mem (hbmAddr 0 0x20000) 8 0x101D }

theorem witness_DeviceWordsElsewhere :
    (∃ t, DeviceWord (place afar) 2 afar afarClient (.ldg 5 6 3 0) t ∧ next (.ldg 5 6 3 0) (place afar) = some t) ∧
    (∃ t, DeviceWord (place afar) 2 afar afarClient (.stg 7 6 0 0) t ∧ next (.stg 7 6 0 0) (place afar) = some t) ∧
    (∃ t, DeviceWord (place afar) 2 afar afarClient (.ldgAcq 5 6 8) t ∧ next (.ldgAcq 5 6 8) (place afar) = some t) ∧
    (∃ t, DeviceWord (place afar) 2 afar afarClient (.stgRel 7 6 0) t ∧ next (.stgRel 7 6 0) (place afar) = some t) ∧
    (∃ t, DeviceWord (place afar) 2 afar afarClient (.amo 0 6 7 false false 0) t ∧
      next (.amo 0 6 7 false false 0) (place afar) = some t) ∧
    (∃ t, DeviceWord (place afar) 2 afar afarClient (.cas 5 6 7 true) t ∧ next (.cas 5 6 7 true) (place afar) = some t) ∧
    (∃ t, DeviceWord former 2 far client (.stg 7 6 3 0) t ∧ next (.stg 7 6 3 0) former = some t) ∧
    (∃ t, DeviceWord peered 2 far client (.stg 7 6 3 0) t ∧ next (.stg 7 6 3 0) peered = some t) := by
  refine ⟨⟨_, .sent _ _ _ _ (.ldg 5 6 3 0) ?_ ?_ ?_ ?_ ?_ (.away (place afar) ⟨1024, 65536, 0x200000⟩ ?_ ?_ ?_), ?_⟩,
    ⟨_, .sent _ _ _ _ (.stg 7 6 0 0) ?_ ?_ ?_ ?_ ?_ (.away (place afar) ⟨1024, 65536, 0x200000⟩ ?_ ?_ ?_), ?_⟩,
    ⟨_, .sent _ _ _ _ (.ldgAcq 5 6 8) ?_ ?_ ?_ ?_ ?_ (.away (place afar) ⟨1024, 65536, 0x200040⟩ ?_ ?_ ?_), ?_⟩,
    ⟨_, .sent _ _ _ _ (.stgRel 7 6 0) ?_ ?_ ?_ ?_ ?_ (.away (place afar) ⟨1024, 65536, 0x200000⟩ ?_ ?_ ?_), ?_⟩,
    ⟨_, .sent _ _ _ _ (.amo 0 6 7 false false 0) ?_ ?_ ?_ ?_ ?_ (.away (place afar) ⟨1024, 65536, 0x200000⟩ ?_ ?_ ?_), ?_⟩,
    ⟨_, .sent _ _ _ _ (.cas 5 6 7 true) ?_ ?_ ?_ ?_ ?_ (.away (place afar) ⟨1024, 65536, 0x200000⟩ ?_ ?_ ?_), ?_⟩,
    ⟨_, .sent _ _ _ _ (.stg 7 6 3 0) ?_ ?_ ?_ ?_ ?_ (.former _ _ 1024 rfl rfl ?_ ?_), ?_⟩,
    ⟨_, .sent _ _ _ _ (.stg 7 6 3 0) ?_ ?_ ?_ ?_ ?_ (.leaf _ _ _ _ _ _ _ rfl rfl ?_ rfl ?_ rfl rfl), ?_⟩⟩ <;>
    decide +kernel

/-- R387, R390, R430: sign and width. -/
theorem test_memory :
    ((next (.sts 7 6 0 15) (place low)).map fun t => t.rd (lsAddr 0 0 15) 1) = some 0x80 ∧
    ((after (.stg 7 6 3 0) (place far)).map fun m => m.c.pos) = some 1 ∧
    ((next (.stg 7 6 3 0) (place far)).map fun t => t.rd 0x200000 8) = some 5 := by decide +kernel

/-! ### Cells and system words -/

/-- `g6` names a cell, `g7` a region of two pages. -/
def celled : Strand := regs [(5, 0x3000), (6, 0x200040), (7, 0x2000)]

def granted : Strand := { celled with acq := some (0x200040, some true) }

/-- Entry 0 shows an exclusive hold on the cell. -/
def bound : Strand := { celled with bindB := vset celled.bindB 0 0x200043 }

theorem witness_CellWords :
    (∃ t, CellWord (place celled) 2 celled client (.acq 6) t ∧ next (.acq 6) (place celled) = some t) ∧
    (∃ t, CellWord (place celled) 2 celled client (.acqSh 6) t ∧ next (.acqSh 6) (place celled) = some t) ∧
    (∃ t, CellWord (place granted) 2 granted client (.acq 6) t ∧ next (.acq 6) (place granted) = some t) ∧
    (∃ t, CellWord (place granted) 2 granted client (.acqSh 6) t ∧ next (.acqSh 6) (place granted) = some t) ∧
    (∃ t, CellWord (place celled) 2 celled client (.rel 6) t ∧ next (.rel 6) (place celled) = some t) ∧
    (∃ t, CellWord (place celled) 2 celled client (.bind 5 0 6 63) t ∧ next (.bind 5 0 6 63) (place celled) = some t) ∧
    (∃ t, CellWord (place celled) 2 celled client (.bind 5 7 6 0) t ∧ next (.bind 5 7 6 0) (place celled) = some t) ∧
    (∃ t, CellWord (place bound) 2 bound client (.bind 5 7 6 0) t ∧ next (.bind 5 7 6 0) (place bound) = some t) := by
  refine ⟨⟨_, .acq 6 _ _ _ rfl ?_ ⟨?_, _, _, _, rfl, ?_, ?_, rfl, ?_, rfl, rfl⟩ ?_, ?_⟩,
    ⟨_, .acqSh 6 _ _ _ rfl ?_ ⟨?_, _, _, _, rfl, ?_, ?_, rfl, ?_, rfl, rfl⟩ ?_, ?_⟩,
    ⟨_, .acqGranted 6 _ _ rfl, ?_⟩, ⟨_, .acqShGranted 6 _ _ rfl, ?_⟩,
    ⟨_, .rel 6 _ _ _ ?_ ⟨?_, _, _, _, rfl, ?_, ?_, rfl, ?_, rfl, rfl⟩ ?_, ?_⟩, ⟨_, .unbind 5 0 6 63 ?_ ?_, ?_⟩,
    ⟨_, .bind 5 7 6 0 _ _ ?_ ?_ ?_ ?_ ?_ rfl ?_, ?_⟩,
    ⟨_, .bindHeld 5 7 6 0 _ _ ?_ ?_ ?_ ?_ ?_ rfl ?_ ?_, ?_⟩⟩ <;> first | rfl | decide

/-- `g6` names a cell of another die. -/
def afarCell : Strand := { regs [(6, 0x10000000200040)] with dmap := vset hero.dmap 1 (2 ^ 63 + 1024) }

/-- A strand in the queue of a cell: its ACQ runs again. -/
def asksCell : Strand := { celled with acq := some (0x200040, none) }

/-- A cell behind a former home, and one behind a PEER leaf. -/
def formerCell : State := { former with strands := [(2, celled)] }
def peeredCell : State := { peered with strands := [(2, celled)] }

theorem witness_CellWordsElsewhere :
    (∃ t, CellWord (place afarCell) 2 afarCell afarClient (.acq 6) t ∧ next (.acq 6) (place afarCell) = some t) ∧
    (∃ t, CellWord (place afarCell) 2 afarCell afarClient (.acqSh 6) t ∧ next (.acqSh 6) (place afarCell) = some t) ∧
    (∃ t, CellWord (place afarCell) 2 afarCell afarClient (.rel 6) t ∧ next (.rel 6) (place afarCell) = some t) ∧
    (∃ t, CellWord formerCell 2 celled client (.acq 6) t ∧ next (.acq 6) formerCell = some t) ∧
    (∃ t, CellWord peeredCell 2 celled client (.rel 6) t ∧ next (.rel 6) peeredCell = some t) ∧
    (∃ t, CellWord (place asksCell) 2 asksCell client (.acq 6) t ∧ next (.acq 6) (place asksCell) = some t) ∧
    (∃ t, CellWord (place asksCell) 2 asksCell client (.acqSh 6) t ∧ next (.acqSh 6) (place asksCell) = some t) := by
  refine ⟨⟨_, .acqSent 6 _ _ _ _ _ rfl ?_ ?_ (.away (place afarCell) ⟨1024, 65536, 0x200040⟩ ?_ ?_ ?_), ?_⟩, ⟨_, .acqShSent 6 _ _ _ _ _ rfl ?_ ?_ (.away (place afarCell) ⟨1024, 65536, 0x200040⟩ ?_ ?_ ?_), ?_⟩,
    ⟨_, .relSent 6 _ _ _ _ _ ?_ ?_ (.away (place afarCell) ⟨1024, 65536, 0x200040⟩ ?_ ?_ ?_), ?_⟩,
    ⟨_, .acqSent 6 _ _ _ _ _ rfl ?_ ?_ (.former _ _ 1024 rfl rfl ?_ ?_), ?_⟩,
    ⟨_, .relSent 6 _ _ _ _ _ ?_ ?_ (.leaf _ _ _ _ rfl rfl ?_ rfl ?_), ?_⟩,
    ⟨_, .acqQueued 6 0x200040 rfl, ?_⟩, ⟨_, .acqShQueued 6 0x200040 rfl, ?_⟩⟩ <;> decide +kernel

/-- R208, R332: the grant makes the word EXCL, and RELs of a cell that is not held change nothing. -/
theorem test_cells :
    ((next (.acq 6) (place celled)).map fun t => t.cellWord 0x200040) = some 0x8000000000000000 ∧
    ((next (.acqSh 6) (place celled)).map fun t => t.cellWord 0x200040) = some 1 ∧
    ((next (.rel 6) (place celled)).map fun t => t.cellWord 0x200040) = some 0 := by decide +kernel

theorem witness_FreeCellIsGranted :
    MemOk demo ∧ demo.cellWord 0x200040 = 0 ∧ tabAt (demo.die 0).cells [] 0x200040 = [] ∧ demo.holdOf 0 0x200040 2 = none ∧
    demo.cellGone 0 0x200040 ⟨0, 0, 0, 0x200040⟩ = false ∧
    (demo.queueCell 0 0x200040 ⟨2, true, ⟨0, 0, 0, 0x200040⟩⟩).cellGone 0 0x200040 ⟨0, 0, 0, 0x200040⟩ = false := by
  unfold MemOk
  decide +kernel

/-- Two strands of a gang: 2 on bank 0 and 3 on bank 1. -/
def pair (m n : Strand) : State :=
  { place m with
    strands := [(2, m), (3, { n with place := some 262144, member := 1 })]
    gangs := [(1, { soloGang with live := [2, 3] })] }

/-- `g6` names a nest record. -/
def queued : Strand := regs [(6, 0x200000)]

/-- The rank with queue 2 full. -/
def fullQueue : Rank := { soloRank with queues := vset soloRank.queues 2 (List.replicate 256 ⟨0, true, false⟩) }

set_option maxRecDepth 4096 in
theorem witness_SystemWords :
    (∃ t, SystemWord demo 2 hero .yield t ∧ next .yield demo = some t) ∧
    (∃ t, SystemWord demo 2 hero .trig t ∧ next .trig demo = some t) ∧
    (∃ t, SystemWord (place { hero with trig := true }) 2 { hero with trig := true } .trig t ∧
      next .trig (place { hero with trig := true }) = some t) ∧
    (∃ t, SystemWord demo 2 hero .gbar t ∧ next .gbar demo = some t) ∧
    (∃ t, SystemWord (pair hero hero) 2 hero .gbar t ∧ next .gbar (pair hero hero) = some t) ∧
    (∃ t, SystemWord (place queued) 2 queued (.enq 5 6 3) t ∧ next (.enq 5 6 3) (place queued) = some t) ∧
    (∃ t, SystemWord { place queued with ranks := [(0, fullQueue)] } 2 queued (.enq 5 6 2) t ∧
      next (.enq 5 6 2) { place queued with ranks := [(0, fullQueue)] } = some t) := by
  refine ⟨⟨_, .yield, ?_⟩, ⟨_, .trig ?_ ?_, ?_⟩, ⟨_, .trigAgain ?_ ?_, ?_⟩, ⟨_, .gbar _ rfl ?_, ?_⟩,
    ⟨_, .gbarWaits _ rfl ?_, ?_⟩, ⟨_, .enq 5 6 3 _ ?_ ?_ ?_ ?_ ?_ rfl ?_, ?_⟩,
    ⟨_, .enqFull 5 6 2 _ ?_ ?_ ?_ ?_ ?_ rfl ?_, ?_⟩⟩ <;> first | rfl | decide +kernel

def leaving : Strand := hero.setWait .c .exit
def ended : Strand := { hero with state := .ended }
def stepping : Strand := hero.setWait .c .step
def parked : Strand := { hero with state := .parked 0 }

theorem witness_WaitEnds :
    (∃ t, WaitEnds (place leaving) 0 2 leaving (.exitRetire 0) t ∧ next (.exitRetire 0) (place leaving) = some t) ∧
    (∃ t, WaitEnds (place ended) 0 2 ended (.exitRetire 0) t ∧ next (.exitRetire 0) (place ended) = some t) ∧
    (∃ t, WaitEnds (place stepping) 0 2 stepping (.stepBoundary 0) t ∧ next (.stepBoundary 0) (place stepping) = some t) ∧
    (∃ t, WaitEnds (place parked) 0 2 parked (.bankUnpark 0) t ∧ next (.bankUnpark 0) (place parked) = some t) := by
  refine ⟨⟨_, .exit ?_ ?_ ?_ ?_ ?_, ?_⟩, ⟨_, .ended ?_ ?_, ?_⟩, ⟨_, .step _ rfl ?_ ?_ ?_ ?_ ?_ ?_, ?_⟩, ⟨_, .unpark ?_, ?_⟩⟩ <;>
    rfl

theorem witness_SystemWaitsEnd :
    let s := pair (hero.setWait .c .gbar) (hero.setWait .c .gbar)
    (place leaving).onBank (BitVec.toNat (0 : Loc)) = some (2, leaving) ∧ (place leaving).strand 2 = some leaving ∧
    s.gang? 1 = some { soloGang with live := [2, 3] } ∧ atBarrier s 2 ∧ atBarrier s 3 ∧
    ((next (.gbarEpisodeComplete 1) s).bind fun t => t.strand 3).map (fun m => m.c.pos) = some 1 := by
  refine ⟨rfl, rfl, rfl, ⟨_, rfl, rfl, rfl⟩, ⟨_, rfl, rfl, rfl⟩, rfl⟩

theorem witness_EndedStrandIsGone : demo.strand 2 = some hero := rfl

theorem witness_BoundaryAdvancesTheStep :
    let s := place stepping
    s.onBank (BitVec.toNat (0 : Loc)) = some (2, stepping) ∧ s.strand 2 = some stepping ∧ s.rank? stepping.rank = some soloRank ∧
    stepping.c.wait = .step ∧ stepping.canIssue = true ∧ s.quiet 2 stepping .c = true ∧ stepping.cmds = [] ∧
    soloRank.stepping = none ∧ s.reclaimOpen soloRank = false ∧ soloRank.migrate = none ∧ soloRank.snapReq = none ∧
    (soloRank.gstep + 1).toNat % 2 ^ 22 ≠ 0 ∧
    ((next (.stepBoundary 0) s).bind fun t => t.rank? 0).map (fun r => r.gstep) = some 1 := by
  refine ⟨rfl, rfl, rfl, rfl, rfl, rfl, rfl, rfl, rfl, rfl, rfl, ?_, rfl⟩
  decide

/-- R432: the word is passed, and FPROG holds the code. -/
theorem witness_TrapsStopAtTheNextWord :
    Ready demo 2 hero ∧ hero.c.delay = 0 ∧ hero.busy = false ∧
    (after (.trap 7) demo).map (fun m => (m.frame[0], m.frame[2], m.frame[6])) =
      some (0x8050, wd (soloText + 4), 0x6000000000000007) ∧
    (after (.sys 0x42) demo).map (fun m => (m.frame[0], m.frame[6])) = some (0x8051, 0x6000000000000042) :=
  ⟨ready _ rfl, rfl, by decide, rfl, rfl⟩

/-! ### Pages and leases -/

/-- `g6` names a mapped page, `g7` an unmapped one. -/
def paged : Strand := regs [(6, 0x200000), (7, 0x80000000)]

/-- The fabric with another word as the leaf that maps the first 1 GiB. -/
def leafed (m : Strand) (e : Word) : State :=
  { place m with mem := Memory.writeNat (place m).mem (hbmAddr 0 0x20000) 8 e.toNat }

/-- The strand's page held by its own procedure. -/
def holding (m : Strand) : State :=
  { place m with dies := [(0, { soloDie with held := [⟨0, 0, 0, 2, .procedure 2 0 false 0⟩] })] }

theorem witness_PageWords :
    (∃ t, PageWord (place paged) 2 paged client (.tlbi 6) t ∧ next (.tlbi 6) (place paged) = some t) ∧
    (∃ t, PageWord (place paged) 2 paged client (.tlbiSp 6) t ∧ next (.tlbiSp 6) (place paged) = some t) ∧
    (∃ t, PageWord (place paged) 2 paged client (.pgsplit 5 7) t ∧ next (.pgsplit 5 7) (place paged) = some t) ∧
    (∃ t, PageWord (holding paged) 2 paged client (.pgcoll 5 6 0) t ∧ next (.pgcoll 5 6 0) (holding paged) = some t) ∧
    (∃ t, PageWord (leafed paged 0xC5) 2 paged client (.pgmig 5 6 0) t ∧ next (.pgmig 5 6 0) (leafed paged 0xC5) = some t) ∧
    (∃ t, PageWord (place paged) 2 paged client (.pgmig 5 6 0) t ∧ next (.pgmig 5 6 0) (place paged) = some t) := by
  refine ⟨⟨_, .tlbi 6 _ _ rfl ?_, ?_⟩, ⟨_, .tlbiSp 6 _ _ rfl ?_, ?_⟩, ⟨_, .unmapped _ _ _ _ _ _ _ (.split 5 7) rfl ?_, ?_⟩,
    ⟨_, .held _ _ _ _ _ _ _ _ _ (.coll 5 6 0 ?_) rfl rfl rfl, ?_⟩, ⟨_, .reserved _ _ _ _ _ _ _ _ (.mig 5 6 0 ?_) rfl rfl ?_ ?_, ?_⟩,
    ⟨_, .begins _ _ _ _ _ _ _ _ (.mig 5 6 0 ?_) rfl rfl ?_ ?_ ?_, ?_⟩⟩ <;> first | rfl | decide +kernel

/-- `g6` names a descriptor: a lease of 32 frames from die 0 to die 1024 (CD1 of package 0). -/
def leasing : Strand := regs [(6, 0x200000), (7, 0)]

/-- As `place leasing`, with a store of the strand still on its way. -/
def stored : State :=
  { place leasing with msgs := [⟨9, 0, 1024, 0, 0, false, 0, false, 0, 0, 0,
    .access ⟨2, .c, 0, .store, 0, 0, 0, 0x300000, 8, 0, 0, 0, 0, none, 0, false⟩⟩] }

theorem witness_LeaseWords :
    (∃ t, LeaseWord (place leasing) 2 leasing client (.lend 5 6) t ∧ next (.lend 5 6) (place leasing) = some t) ∧
    (∃ t, LeaseWord (place leasing) 2 leasing client (.reclaim 5 7) t ∧ next (.reclaim 5 7) (place leasing) = some t) ∧
    (∃ t, LeaseWord stored 2 leasing client (.lend 5 6) t ∧ next (.lend 5 6) stored = some t) := by
  refine ⟨⟨_, .lend 5 6 _ _ ?_ rfl ?_, ?_⟩, ⟨_, .reclaim 5 7 _ _ ?_ rfl, ?_⟩,
    ⟨_, .lendAfterStores 5 6 ?_, ?_⟩⟩ <;> rfl

/-- A descriptor that names a die of package 1, which is not up. -/
theorem witness_LendLost :
    let s := { place leasing with mem := Memory.writeNat (place leasing).mem 0x200000 8 0x400 }
    ∃ t, LeaseWord s 2 leasing client (.lend 5 6) t ∧ next (.lend 5 6) s = some t := by
  refine ⟨_, .lendLost 5 6 _ _ ?_ rfl ?_, ?_⟩ <;> rfl

/-- A message that has reached its die and whose turn has come. -/
def inbox (s : State) (b : Body) : State :=
  { s with msgs := [⟨9, 0, 0, 0, 0, true, 0, false, 0, 0, 0, b⟩], subject := 9 }

def letter (b : Body) : Msg := ⟨9, 0, 0, 0, 0, true, 0, false, 0, 0, 0, b⟩

/-- A polder entry of die 0 with 32 frames from frame 0x10000. -/
def lease (state : BitVec 3) (borrower : Bool) : Polder :=
  { polderOf 0 (0x10000 + 2 ^ 32) 0 state borrower with lender := 0, borrow := 0, dleft := 5 }

/-- The fabric of the tests with no strand. -/
def still : State := { demo with strands := [] }

def leased (state : BitVec 3) (borrower : Bool) : State :=
  { still with dies := [(0, { soloDie with polders := [(3, lease state borrower)] })] }

theorem witness_LeaseRows :
    let w1 : Word := 0x10000 + 2 ^ 32
    let w0 : Word := 2 ^ 20
    (∃ t, LeaseRow (inbox still (.lend 0 0 0 0 (.strand 2 5))) (letter (.lend 0 0 0 0 (.strand 2 5))) .lendRequest t ∧
      next .lendRequest (inbox still (.lend 0 0 0 0 (.strand 2 5))) = some t) ∧
    (∃ t, LeaseRow (inbox still (.lend w0 w1 0 0 (.sluice 0 4))) (letter (.lend w0 w1 0 0 (.sluice 0 4))) .lendRequest t ∧
      next .lendRequest (inbox still (.lend w0 w1 0 0 (.sluice 0 4))) = some t) ∧
    (∃ t, LeaseRow (inbox (leased 2 false) (.lend w0 w1 0 0 (.sluice 0 4))) (letter (.lend w0 w1 0 0 (.sluice 0 4)))
      .lendRequest t ∧ next .lendRequest (inbox (leased 2 false) (.lend w0 w1 0 0 (.sluice 0 4))) = some t) ∧
    (∃ t, LeaseRow (inbox still (.offer 3 (lease 1 false) (.sluice 0 4))) (letter (.offer 3 (lease 1 false) (.sluice 0 4)))
      .leaseOffer t ∧ next .leaseOffer (inbox still (.offer 3 (lease 1 false) (.sluice 0 4))) = some t) ∧
    (∃ t, LeaseRow (inbox (leased 1 false) (.answer 3 (some 7) (.strand 2 5))) (letter (.answer 3 (some 7) (.strand 2 5)))
      .offerAnswer t ∧ next .offerAnswer (inbox (leased 1 false) (.answer 3 (some 7) (.strand 2 5))) = some t) ∧
    (∃ t, LeaseRow (inbox (leased 1 false) (.answer 3 none (.strand 2 5))) (letter (.answer 3 none (.strand 2 5)))
      .offerAnswer t ∧ next .offerAnswer (inbox (leased 1 false) (.answer 3 none (.strand 2 5))) = some t) ∧
    (∃ t, LeaseRow (inbox (leased 3 false) (.returned 3)) (letter (.returned 3)) .returnMessage t ∧
      next .returnMessage (inbox (leased 3 false) (.returned 3)) = some t) ∧
    (∃ t, LeaseRow (inbox (leased 3 true) (.fence 3)) (letter (.fence 3)) .fenceMessage t ∧
      next .fenceMessage (inbox (leased 3 true) (.fence 3)) = some t) := by
  refine ⟨⟨_, .malformed _ _ _ _ _ rfl ?_, ?_⟩, ⟨_, .offered _ _ _ _ _ _ rfl ?_ rfl ?_, ?_⟩,
    ⟨_, .overlaps _ _ _ _ _ _ rfl ?_ rfl ?_, ?_⟩, ⟨_, .taken _ _ _ _ rfl rfl, ?_⟩, ⟨_, .active _ _ _ _ rfl rfl ?_ ?_, ?_⟩,
    ⟨_, .failed _ _ _ rfl rfl ?_ ?_, ?_⟩, ⟨_, .returned _ _ rfl rfl ?_ ?_ ?_ ?_, ?_⟩,
    ⟨_, .fenced _ _ rfl rfl ?_, ?_⟩⟩ <;> decide +kernel

theorem witness_Reclaiming :
    ∃ t, LeaseRow (inbox (leased 2 true) (.reclaimEvent 1 3)) (letter (.reclaimEvent 1 3)) .reclaimEvent t ∧
      next .reclaimEvent (inbox (leased 2 true) (.reclaimEvent 1 3)) = some t := by
  refine ⟨_, .reclaiming _ _ _ rfl rfl ?_ ?_ ?_, ?_⟩ <;> decide +kernel

/-- A die whose sixteen entries are taken: a request ends with status 2, an offer is declined. -/
theorem witness_FullPolderTable :
    let full : State := { still with dies := [(0, { soloDie with polders := (List.range 16).map fun i => (i, lease 2 false) })] }
    let b : Body := .lend (2 ^ 20) (0x10000 + 2 ^ 32) 0 0 (.strand 2 5)
    let o : Body := .offer 3 (lease 1 false) (.strand 2 5)
    (∃ t, LeaseRow (inbox full b) (letter b) .lendRequest t ∧ next .lendRequest (inbox full b) = some t) ∧
    (∃ t, LeaseRow (inbox full o) (letter o) .leaseOffer t ∧ next .leaseOffer (inbox full o) = some t) := by
  refine ⟨⟨_, .noEntry _ _ _ _ _ rfl ?_ ?_, ?_⟩, ⟨_, .declined _ _ _ rfl ?_, ?_⟩⟩ <;> rfl

/-- A lender's entry whose deadline has run down. -/
def overdue : State :=
  { still with dies := [(0, { soloDie with polders := [(3, { lease 3 false with dleft := 0 })] })] }

theorem witness_Due : Due (inbox still (.returned 3)) (letter (.returned 3)) ∧
    (∃ t, next (.reclaimDeadline 0 3) overdue = some t) ∧
    tabGet (overdue.die 0).polders (BitVec.toNat (3 : BitVec 4)) = some { lease 3 false with dleft := 0 } :=
  ⟨rfl, ⟨_, rfl⟩, rfl⟩

theorem witness_MoreLeaseRows :
    (∃ t, LeaseRow (inbox still (.answer 3 (some 7) (.sluice 0 4))) (letter (.answer 3 (some 7) (.sluice 0 4))) .offerAnswer t) ∧
    (∃ t, LeaseRow (inbox overdue (.returned 3)) (letter (.returned 3)) .returnMessage t) := by
  refine ⟨⟨_, .gone _ _ _ rfl rfl rfl⟩, ⟨_, .returnedLate _ _ rfl rfl rfl rfl⟩⟩

/-- A strand whose C stream waits for its page procedure. -/
def waitsPage (bits : IWord) : Strand :=
  { paged with walk := [⟨0, 0, bits, 0, false⟩], c := { paged.c with wait := .page } }

/-- PGSPLIT of the 1 GiB page, with no table pool: status 2. A hardware migration of a 64 KiB page that has no frame. -/
theorem witness_PageRows :
    ∃ t, PageRow (holding (waitsPage 0x31146000)) (.pageProcedureDone 0) t ∧
      next (.pageProcedureDone 0) (holding (waitsPage 0x31146000)) = some t := by
  refine ⟨_, .procedure 0 2 (waitsPage 0x31146000) client _ (.pgsplit 5 6) 5 6 0 false 0 _ _ _ _ rfl ?_ rfl ?_ ?_ (.split 5 6)
    rfl ?_ ?_ ?_ rfl, ?_⟩ <;> rfl

theorem witness_InvalidationRemovesEntries :
    let s : State := { demo with dies := [(0, { soloDie with tlb := [⟨0, 0, 0, 2, 5⟩] })] }
    ((s.die 0).tlbHit 0 0 0x200000).isSome = true ∧ (((s.tlbInval 0 ⟨0, 0, 0x200000⟩).die 0).tlbHit 0 0 0x200000) = none := by
  decide +kernel

/-- The tables of `place` with the 64 KiB page at offset 0x50000 mapped by a leaf of its own, at 0x40028. -/
def paged64 (m : List Host.Cell) (e : Word) : List Host.Cell :=
  Memory.writeNat (Memory.writeNat (Memory.writeNat m (hbmAddr 0 0x20008) 8 0x30001) (hbmAddr 0 0x30008) 8 0x40001)
    (hbmAddr 0 0x40028) 8 e.toNat

/-- `g6` names the 64 KiB page at 0x50000, which the rank's sweep has not reached yet. -/
def paged5 : Strand := regs [(6, 0x50000)]

def sweeping : State :=
  { place paged5 with
    mem := paged64 demo.mem 0x5000081
    ranks := [(0, { soloRank with sweeps := [⟨2 ^ 22, [], [⟨5, 1⟩], []⟩] })] }

theorem witness_SweptBeforeThePage :
    ∃ t, PageWord sweeping 2 paged5 client (.pgmig 5 6 0) t ∧ next (.pgmig 5 6 0) sweeping = some t := by
  refine ⟨_, .sweptFirst _ _ _ _ _ _ _ _ _ _ (.mig 5 6 0 ?_) rfl rfl ?_ ?_ rfl, ?_⟩ <;> first | rfl | decide +kernel

/-- A MIGRATE page of frame 5 that the hardware moves to frame 9 of its own die. -/
def moving : State :=
  { still with
    mem := paged64 still.mem 0x5000081
    dies := [(0, { soloDie with held := [⟨0, 0, 0x50000, 0, .hwMigration 0 9⟩], hbmPool := [⟨9, 1⟩] })] }

/-- The same page, moved to frame 9 of die 1024, and one whose leaf is no longer MIGRATE when the copy is done. -/
def emigrating : State :=
  { moving with dies := [(0, { soloDie with held := [⟨0, 0, 0x50000, 0, .hwMigration 1024 9⟩] }),
      (1024, { soloDie with hbmPool := [⟨9, 1⟩] })] }
def staying : State := { moving with mem := paged64 still.mem 0x5000001 }

/-- A live polder page of frame 0x10000 that is copied to frame 9 of the borrower's LPDDR-6. -/
def demoting : State :=
  { still with
    mem := Memory.writeNat (paged64 still.mem 0x10000000011) (hbmAddr 0 0) 16 (0x40029 + 5 * 2 ^ 64)
    dies := [(0, { soloDie with
      held := [⟨0, 0, 0x50000, 0, .demotion 3 9⟩]
      polders := [(3, { lease 3 true with live := 1, todo := [⟨0, false, 0x40028, 5, 0, 0⟩] }), (4, lease 3 false)] })] }

/-- R193: a listed page that is mapped no more leaves the list before the next turn, and where no page is listed nothing changes. -/
theorem witness_Settle :
    (State.settle { demoting with mem := still.mem }).dies.map (fun e => e.2.polders.map fun p => (p.2.todo, p.2.live)) =
      [[([], 0), ([], 0)]] ∧
    (State.settle demoting).dies = demoting.dies ∧ ∀ e, e ∈ (leased 3 true).dies → ∀ p, p ∈ e.2.polders → p.2.todo = [] := by
  refine ⟨?_, ?_, ?_⟩
  · decide +kernel
  · decide +kernel
  · decide

theorem witness_PageEngineRows :
    (∃ t, PageRow moving (.hwMigrationDone 0) t ∧ next (.hwMigrationDone 0) moving = some t) ∧
    (∃ t, PageRow emigrating (.hwMigrationDone 0) t ∧ next (.hwMigrationDone 0) emigrating = some t) ∧
    (∃ t, PageRow staying (.hwMigrationDone 0) t ∧ next (.hwMigrationDone 0) staying = some t) ∧
    (∃ t, PageRow demoting (.pageDemoteDone 0 3) t ∧ next (.pageDemoteDone 0 3) demoting = some t) := by
  have stays (l) (hl : (migrated staying 0 ⟨0, 0, 0x50000, 0, .hwMigration 0 9⟩).walk 0 0 0 0x50000 = some l) : leafMode l.leaf ≠ 2 := by
    have h : (migrated staying 0 ⟨0, 0, 0x50000, 0, .hwMigration 0 9⟩).walk 0 0 0 0x50000 = some ⟨0x5000001, 0, false, 0x40028⟩ := by
      decide +kernel
    cases h.symm.trans hl
    decide
  have first (v : Die) (h : Held) (home f) (hv : v.held = [h]) (hb : h.by_ = .hwMigration home f) : FirstMigration v h home f :=
    ⟨[], [], hv, hb, by simp⟩
  refine ⟨⟨_, .migration 0 _ 0 9 ⟨0x5000081, 0, false, 0x40028⟩ _ (first _ _ _ _ rfl rfl) ?_ ?_ ?_ rfl ?_ ?_ ?_ ?_ ?_, ?_⟩,
    ⟨_, .migration 0 _ 1024 9 ⟨0x5000081, 0, false, 0x40028⟩ _ (first _ _ _ _ rfl rfl) ?_ ?_ ?_ rfl ?_ ?_ ?_ ?_ ?_, ?_⟩,
    ⟨_, .migrationStays 0 _ 0 9 _ (first _ _ _ _ rfl rfl) ?_ ?_ ?_ rfl (fun l hl => .inr (.inl (stays l hl))), ?_⟩,
    ⟨_, .demotion 0 3 _ _ _ ⟨⟨0, false, 0x40028, 5, 0, 0⟩, 0x10000000011⟩ rfl ?_ ?_ rfl ?_ ?_ ?_ ?_ ?_ ?_, ?_⟩⟩ <;> decide +kernel

/-! ### Tile memory, index walks, asynchronous commands -/

/-- A tile's configuration word (R81). -/
def cfg (rows cols fmt : Nat) : Word := wd (rows + cols * 256 + fmt * 2 ^ 20)

/-- The strand with tile configurations and registers set. -/
def tiled (cs : List (Nat × Word)) (l : List (Field × Word)) : Strand :=
  { regs l with tcfg := cs.foldl (fun v e => vset v e.1 e.2) hero.tcfg }

/-- `t1` is a 4 × 4 FP32 tile, `t2` a 4 × 16 INT8 tile; `g6` and `g8` name LS and `g7` private memory. -/
def loads : Strand := tiled [(1, cfg 4 4 0), (2, cfg 4 16 8)] [(6, ls), (7, 0x200000), (8, ls + 0x2000)]

/-- As `place loads`, with the first granules full. -/
def loadsFull : State := { place loads with fe := natRange 0 4 }

theorem witness_TileWords :
    (∃ t, TileWord (place loads) 2 loads client (.tld 1 7 0) t ∧ next (.tld 1 7 0) (place loads) = some t) ∧
    (∃ t, TileWord (place loads) 2 loads client (.tst 1 8 (-1)) t ∧ next (.tst 1 8 (-1)) (place loads) = some t) ∧
    (∃ t, TileWord (place loads) 2 loads client (.tstk 1 6 0) t ∧ next (.tstk 1 6 0) (place loads) = some t) ∧
    (∃ t, TileWord loadsFull 2 loads client (.tldk 1 6 0) t ∧ next (.tldk 1 6 0) loadsFull = some t) := by
  refine ⟨⟨_, .tld 1 7 0 _ _ _ rfl ?_ rfl, ?_⟩, ⟨_, .tst 1 8 (-1) _ _ _ rfl ?_ rfl, ?_⟩,
    ⟨_, .tstk 1 6 0 _ _ _ _ rfl ?_ ?_ rfl rfl ?_, ?_⟩, ⟨_, .tldk 1 6 0 _ _ _ _ rfl ?_ ?_ rfl rfl ?_, ?_⟩⟩ <;> decide +kernel

theorem witness_TileWordsOfManyBytes :
    (∃ t, TileWord (place loads) 2 loads client (.cbld 7 1) t) ∧
    (∃ t, TileWord (place loads) 2 loads client (.tmov true 6 8 false) t) ∧
    (∃ t, TileWord (place loads) 2 loads client (.tldt 2 7 0) t) := by
  refine ⟨⟨_, .cbld 7 1 _ _ _ rfl ?_ rfl⟩, ⟨_, .tmov true 6 8 false _ _ _ _ ?_ ?_ ?_ ?_ (.inr (.inl ?_)) rfl rfl⟩,
    ⟨_, .tldt 2 7 0 _ _ rfl ?_ ?_ ?_ ?_ ?_ (.block _ _ _ _ _ _ _ rfl (.done _ _ _))⟩⟩ <;> decide +kernel

/-- Operands of the index walks: `g10` base or destination, `g11` index list, `g12` and up the descriptor. -/
def walker (w0 w1 w2 base : Word) : Strand :=
  tiled [(1, cfg 1 4 0)] [(10, base), (11, 0x200000), (12, w0), (13, w1), (14, w2)]

/-- GATHER of one 16-byte row of a table of one row, and of an index beyond it. -/
def gathers : Strand := walker 0x300000 0x100001001 0 ls

/-- GRED of no bag beyond the first: one empty bag. -/
def reduces : Strand := walker 0x300000 0x100001001 0 ls

/-- SCAT, SCATA and UPD of one row of `t1` to a table of one row. -/
def scatters : Strand := walker 0x1000000010041 0 0 0x300000

theorem witness_WalkWords :
    (∃ t, WalkWordRuns (place gathers) 2 gathers client (.gather 10 11 12 false 0) t ∧
      next (.gather 10 11 12 false 0) (place gathers) = some t) ∧
    (∃ t, WalkWordRuns (place reduces) 2 reduces client (.gred 10 11 12 false 0 false false) t ∧
      next (.gred 10 11 12 false 0 false false) (place reduces) = some t) ∧
    (∃ t, WalkWordRuns (place scatters) 2 scatters client (.scat 10 11 12 false 0) t ∧
      next (.scat 10 11 12 false 0) (place scatters) = some t) ∧
    (∃ t, WalkWordRuns (place scatters) 2 scatters client (.scata 10 11 12 false 0 0) t ∧
      next (.scata 10 11 12 false 0 0) (place scatters) = some t) ∧
    (∃ t, WalkWordRuns (place scatters) 2 scatters client (.upd 10 11 12 false 0 0) t ∧
      next (.upd 10 11 12 false 0 0) (place scatters) = some t) := by
  refine ⟨⟨_, .gather 10 11 12 false 0 _ _ ?_ ?_ ?_ ?_ ?_ ?_ ?_ ?_ ?_ rfl, ?_⟩,
    ⟨_, .gred 10 11 12 false 0 false false 4 _ _ _ _ ?_ ?_ ?_ ?_ ?_ ?_ ?_ ?_ ?_ ?_ rfl ?_ ?_ rfl, ?_⟩,
    ⟨_, .scat 10 11 12 false 0 _ _ _ _ ?_ ?_ ?_ ?_ ?_ rfl ?_ ?_ ?_ ?_ ?_ rfl rfl, ?_⟩,
    ⟨_, .scata 10 11 12 false 0 0 _ _ _ _ 32 ?_ ?_ ?_ ?_ ?_ rfl ?_ ?_ ?_ ?_ ?_ ?_ ?_ ?_ rfl rfl, ?_⟩,
    ⟨_, .upd 10 11 12 false 0 0 _ _ 1 _ _ ?_ ?_ ?_ ?_ ?_ ?_ ?_ rfl ?_ ?_ ?_ ?_ ?_ ?_ ?_ ?_ rfl rfl, ?_⟩⟩ <;> decide +kernel

/-- `g10` and `g11` name LS and private memory, `g12` a copy of 16 bytes with its counter at LS 0x100, `g13` pitches. -/
def copies (w0 w1 : Word) : Strand := regs [(10, ls), (11, 0x200000), (12, w0), (13, w1)]

def copy1 : Strand := copies 0x10000000010 0
def copy2 : Strand := copies 0x10000020010 0x1000000010

theorem witness_CopyWords :
    (∃ t, CopyWord (place copy1) 2 copy1 client (.cpy false 10 11 12 true) t ∧
      next (.cpy false 10 11 12 true) (place copy1) = some t) ∧
    (∃ t, CopyWord (place copy2) 2 copy2 client (.cpyt true 10 11 12 false) t ∧
      next (.cpyt true 10 11 12 false) (place copy2) = some t) := by
  refine ⟨⟨_, .cpy false 10 11 12 true _ ?_ ?_ ?_ ?_ ?_ ?_ ?_ ?_ ⟨?_, _, _, rfl, rfl, rfl⟩, ?_⟩,
    ⟨_, .cpyt true 10 11 12 false _ _ _ _ _ rfl rfl rfl rfl ?_ ?_ ?_ ?_ ?_ ?_ ?_ ?_ ?_ ?_ ?_ ?_ ?_ ⟨?_, _, _, rfl, rfl, rfl⟩, ?_⟩⟩ <;>
    first | rfl | decide +kernel

/-- Two ranks in communicator 0, whose member list is at 0x300000. -/
def commRank : Rank := { soloRank with nrankm1 := 1, comms := [(0, ⟨0x10001, 0x300000, 0x1000000000000 / 2 ^ 16, 0, 0⟩)] }

def commClient : Client := { client with nrankm1 := 1 }

/-- CAG of 16 bytes: `g12` with the counter at LS 0x100, `g13` the byte count. -/
def collects : Strand := copies (0x100 * 2 ^ 26) 16

def commState : State :=
  { place collects with ranks := [(0, commRank)], mem := Memory.writeNat (place collects).mem 0x300000 4 0x10000 }

theorem witness_Collective :
    let s1 := (commState.roster commRank 0 0).1
    let k := collCommand collects commRank .cag 10 11 12 0
    CollectiveForm (.cag 10 11 12 false) .cag 10 11 12 ∧ ReadyAs commState 2 collects commClient ∧
    commState.rank? collects.rank = some commRank ∧ (commState.roster commRank 0 0).2 = .ok 0 [0, 1] ∧
    collDescBad .cag (commRank.comm 0) (collects.reg 12) (collects.reg 13) = false ∧
    s1.counterCheck collects.gang k.counter = none ∧ k.dst.toNat % 16 = 0 ∧ k.src.toNat % 16 = 0 ∧
    (k.head.map fun h => decide ((collRegions k h).2 = false ∧ s1.endChecks commClient (collRegions k h).1 = none)) = some true ∧
    (∃ s2, Issued s1 2 collects .s commClient k s2) ∧ (next (.cag 10 11 12 false) commState).isSome = true := by
  refine ⟨.cag 10 11 12 false, ⟨⟨rfl, rfl, rfl⟩, rfl⟩, rfl, ?_, ?_, ?_, ?_, ?_, ?_, ⟨_, ?_, 0, _, ?_, rfl, rfl⟩, ?_⟩ <;>
    decide +kernel

/-- A copy of 16 bytes in slot 0, issued by the L stream, with its counter at LS 0x100. -/
def flying : Cmd := { Cmd.new hero (.cpy 16) .l 0x300000 0x200000 (ls + 0x100) true with order := 5 }

def copying (k : Cmd) : Strand := { hero with cmds := [(0, k)] }

/-- The same with its source in a part of the space that is not mapped. -/
def lostCopy : Cmd := { flying with src := 0x80000000 }

theorem isDoneE {α β : Type} (d : β) (x : Except α β) (h : x.toOption.isSome = true) : x = .ok (x.toOption.getD d) := by
  cases x <;> simp_all [Except.toOption]

theorem witness_CommandRows :
    (∃ t, CommandRow (place (copying flying)) 0 0 2 (copying flying) client flying (.chunkArrive 0 0 0) t ∧
      next (.chunkArrive 0 0 0) (place (copying flying)) = some t) ∧
    (∃ t, CommandRow (place (copying lostCopy)) 0 0 2 (copying lostCopy) client lostCopy (.chunkFault 0 0) t ∧
      next (.chunkFault 0 0) (place (copying lostCopy)) = some t) ∧
    (∃ t, CommandRow (place (copying flying)) 0 0 2 (copying flying) client flying (.commandRelocate 0 0 7) t ∧
      next (.commandRelocate 0 0 7) (place (copying flying)) = some t) ∧
    (place (copying flying)).runningCmd 0 0 = some (2, copying flying, client, flying) := by
  refine ⟨⟨_, .arrive 0 _ _ ?_ ?_ ?_ ?_ rfl, ?_⟩, ⟨_, .fault _ _ _ _ ?_ ?_ rfl (isDoneE demo _ ?_), ?_⟩,
    ⟨_, .relocate 7 ?_ (.inl ⟨_, rfl⟩) ?_ ?_ ?_ ?_ ?_ ?_ ?_, ?_⟩, ?_⟩ <;> decide +kernel

/-- A collective with nothing to receive whose counter ends, and one of a rank that is in no communicator. -/
theorem witness_CommandRowsOfCollectives :
    let k : Cmd := { flying with op := .crs, stream := .s, head := some ⟨0, 0, 0, false, 0, 0, 2, true, false, false⟩, pos := some 0 }
    let b : Cmd := { k with begun := false }
    (∃ t, CommandRow (place (copying k)) 0 0 2 (copying k) client k (.chunkArrive 0 0 0) t) ∧
    (∃ t, CommandRow (place (copying b)) 0 0 2 (copying b) client b (.chunkFault 0 0) t) := by
  refine ⟨⟨_, .empty 0 _ ?_ ?_ rfl⟩, ⟨_, .member _ _ _ _ _ rfl ?_ rfl rfl (isDoneE demo _ ?_)⟩⟩ <;> decide +kernel

/-! ### Vector words -/

/-- A strand with tiles configured, and their images. -/
def vec (m : Strand) (images : List (Nat × Nat)) : State :=
  { place m with tiles := images.map fun e => (e.1, BitVec.ofNat 32768 e.2) }

/-- Element `k` of width `w` of a tile after a word. -/
def elemAfter (i : Instr) (s : State) (tile w k : Nat) : Option Nat :=
  (next i s).map fun t => (element (tabAt t.tiles 0 tile) w k).toNat

/-- `t1`, `t2`, `t3` are 1 × 2 tiles of a format. -/
def trio (fmt : Nat) : Strand := tiled [(1, cfg 1 2 fmt), (2, cfg 1 2 fmt), (3, cfg 1 2 fmt)] []

theorem witness_FloatWords :
    FloatWord (.vfma 1 2 3 4) 1 2 3 4 (fun q x y z => Val.add (q == .rdn) (x.mul y) z) ∧ Ready (place (trio 0)) 2 (trio 0) ∧
    (trio 0).vTile 1 [0x0, 0x1, 0x2] = .ok ⟨1, 1, cfg 1 2 0⟩ ∧ (trio 0).vLike ⟨1, 1, cfg 1 2 0⟩ 2 = .ok ⟨2, 2, cfg 1 2 0⟩ ∧
    (trio 0).vLike ⟨1, 1, cfg 1 2 0⟩ 3 = .ok ⟨3, 3, cfg 1 2 0⟩ ∧ (0 + 1) * cfgWidth 0 ≤ 32768 ∧ 1 < Tile.count ⟨1, 1, cfg 1 2 0⟩ :=
  ⟨.vfma 1 2 3 4, ready _ rfl, rfl, rfl, rfl, by decide, by decide⟩

/-- FP32 by hand: 1 + 2, 1 − 2, 2 × 3, 2 × 3 + 1 and its variants; element 1 is off and keeps its bits. -/
theorem test_float :
    let s := vec { trio 0 with masks := [1] } [(1, 0x3F800000 + 7 * 2 ^ 32), (2, 0x40000000), (3, 0x40400000)]
    elemAfter (.vadd 1 1 2 0) s 1 32 0 = some 0x40400000 ∧ elemAfter (.vsub 1 1 2 0) s 1 32 0 = some 0xBF800000 ∧
    elemAfter (.vmul 1 2 3 0) s 1 32 0 = some 0x40C00000 ∧ elemAfter (.vfma 1 2 3 0) s 1 32 0 = some 0x40E00000 ∧
    elemAfter (.vfms 1 2 3 0) s 1 32 0 = some 0x40A00000 ∧ elemAfter (.vfnma 1 2 3 0) s 1 32 0 = some 0xC0A00000 ∧
    elemAfter (.vadd 1 1 2 0) s 1 32 1 = some 7 := by decide +kernel

theorem witness_BitsWords :
    BitsWord (.vshl 1 2 31 true) 1 2 2 (fun f => f = 0xC || f = 0xD) (fun w _ x _ => BitVec.ofNat w x <<< (31 : Field).toNat) ∧
    (trio 0xD).vTile 1 vecFmts = .ok ⟨1, 1, cfg 1 2 0xD⟩ ∧ (Tile.mk 1 1 (cfg 1 2 0xD)).fmt = 0xD ∧
    (trio 0xD).vLike ⟨1, 1, cfg 1 2 0xD⟩ 2 = .ok ⟨2, 2, cfg 1 2 0xD⟩ :=
  ⟨.vshlI 1 2 31, rfl, rfl, rfl⟩

/-- INT16 by hand: saturation, wrap, shifts at and beyond the width; FP32: zeros' signs and the NaN rule. -/
theorem test_elements :
    let s := vec (trio 0xD) [(1, 0x7FFF), (2, 0x0001), (3, 0x0010)]
    let z := vec (trio 0) [(1, 0x80000000), (2, 0x00000000), (3, 0x7FC00000)]
    elemAfter (.viadd 1 1 2 true) s 1 16 0 = some 0x7FFF ∧ elemAfter (.viadd 1 1 2 false) s 1 16 0 = some 0x8000 ∧
    elemAfter (.visub 2 2 1 false) s 2 16 0 = some 0x8002 ∧ elemAfter (.vimul 1 1 1 true) s 1 16 0 = some 0x7FFF ∧
    elemAfter (.vshl 1 1 3 false) s 1 16 0 = some 0 ∧ elemAfter (.vshr 1 1 15 true) s 1 16 0 = some 0 ∧
    elemAfter (.vsra 1 1 63 true) s 1 16 0 = some 0 ∧ elemAfter (.vmax 1 1 2 false false) z 1 32 0 = some 0 ∧
    elemAfter (.vmin 1 1 2 false false) z 1 32 0 = some 0x80000000 ∧
    elemAfter (.vmax 1 1 3 false true) z 1 32 0 = some 0x80000000 ∧ elemAfter (.vabs 1 1) z 1 32 0 = some 0 ∧
    elemAfter (.vneg 1 2) z 1 32 0 = some 0x80000000 := by decide +kernel

/-- R455, R465: both ends of INT16, and what stays within them. -/
theorem test_saturation_counts :
    bitsOvf (.viadd 1 1 2 true) 16 0xD 30000 10000 = true ∧ bitsOvf (.viadd 1 1 2 false) 16 0xD 30000 10000 = false ∧
    bitsOvf (.viadd 1 1 2 true) 16 0xD 0x7FFF 0 = false ∧ bitsOvf (.visub 1 1 2 true) 16 0xD 0x8000 1 = true ∧
    bitsOvf (.vimul 1 1 2 true) 16 0xD 0x8000 1 = false ∧ bitsOvf (.vneg 1 1) 16 0xD 0x8000 0x8000 = true ∧
    bitsOvf (.vabs 1 1) 32 0xC 0x8001 0x8001 = false ∧ bitsOvf (.vabs 1 1) 16 0x2 0x8000 0x8000 = false := by decide

/-- A tile without a configuration serves the lane words. -/
theorem witness_LaneWords :
    (∃ f, LaneWord demo hero (.vbcr 1 2 63) 1 hero.mask.getLsbD f) ∧ (∃ f, LaneWord demo hero (.vsel 1 2 3) 1 (fun _ => true) f) ∧
    (∃ f, LaneWord demo hero (.vrotc 1 2 15) 1 hero.mask.getLsbD f) ∧ hero.tile .x 1 = some ⟨1, 1, 0⟩ :=
  ⟨⟨_, .vbcr 1 2 63 ⟨2, 2, 0⟩ rfl⟩, ⟨_, .vsel 1 2 3 ⟨2, 2, 0⟩ ⟨3, 3, 0⟩ rfl rfl⟩, ⟨_, .vrotc 1 2 15 ⟨2, 2, 0⟩ rfl⟩, rfl⟩

/-- One lane is enabled in each test; the operand has lane 1 set. -/
def lanes (on : Nat) : State := vec { regs [(6, 0xFFFFFFFF)] with masks := [BitVec.ofNat 1024 (2 ^ on)] } [(2, 2 ^ 32 * 9)]

theorem test_lanes :
    elemAfter (.viota 1 6) (lanes 3) 1 32 3 = some 2 ∧ elemAfter (.vmovG 1 6) (lanes 0) 1 32 0 = some 0xFFFFFFFF ∧
    elemAfter (.vmov 1 2) (lanes 1) 1 32 1 = some 9 ∧ elemAfter (.vbcr 1 2 1) (lanes 5) 1 32 5 = some 9 ∧
    elemAfter (.vbcc 1 2 0) (lanes 65) 1 32 65 = some 9 ∧ elemAfter (.vrotr 1 2 5) (lanes 6) 1 32 6 = some 9 ∧
    elemAfter (.vrotc 1 2 15) (lanes 961) 1 32 961 = some 9 := by decide +kernel

theorem test_lane_logic :
    elemAfter (.vnot 1 2) (lanes 1) 1 32 1 = some 0xFFFFFFF6 ∧ elemAfter (.vand 1 2 2) (lanes 1) 1 32 1 = some 9 ∧
    elemAfter (.vor 1 2 3) (lanes 1) 1 32 1 = some 9 ∧ elemAfter (.vxor 1 2 2) (lanes 1) 1 32 1 = some 0 ∧
    elemAfter (.vsel 1 2 3) (lanes 1) 1 32 1 = some 9 ∧ elemAfter (.vsel 1 3 2) (lanes 0) 1 32 1 = some 9 := by decide +kernel

theorem witness_GroupWords :
    (∃ v, GroupWord (trio 0) (.vredr 1 2 0 0) 1 2 v) ∧ (∃ v, GroupWord (trio 0) (.vscanc 1 2 true 2 7) 1 2 v) ∧
    Ready (place (trio 0)) 2 (trio 0) ∧
    (trio 0).tile .x 1 = some ⟨1, 1, cfg 1 2 0⟩ ∧ (trio 0).vTile 2 [0x0, 0xC] = .ok ⟨2, 2, cfg 1 2 0⟩ :=
  ⟨⟨_, .vredr 1 2 0 0⟩, ⟨_, .vscanc 1 2 true 2 7⟩, ready _ rfl, rfl, rfl⟩

/-- R469: 1.0 and three times 2^-24 sum to 1 + 2^-23 in the tree. -/
theorem test_vredr :
    let s := vec (tiled [(2, cfg 16 64 0)] []) [(2, 0x3F800000 + 0x33800000 * (2 ^ 32 + 2 ^ 64 + 2 ^ 96))]
    elemAfter (.vredr 1 2 0 0) s 1 32 63 = some 0x3F800001 := by decide +kernel

theorem witness_OtherElements :
    let m := trio 0xF
    let v := tiled [(1, cfg 1 2 0xC), (2, cfg 1 2 0), (3, cfg 1 2 0)] []
    (∃ f, OtherElements (place v) v (.vcmp 1 2 3 false 6) ⟨1, 1, cfg 1 2 0xC⟩ f) ∧
    (∃ f, OtherElements (place m) m (.vdkadd 1 2 3) ⟨1, 1, cfg 1 2 0xF⟩ f) ∧
    (∃ f, OtherElements (place m) m (.vdkapp 1 2) ⟨1, 1, cfg 1 2 0xF⟩ f) ∧
    (∃ f, OtherElements (place (trio 0)) (trio 0) (.vcor 1 2 16 7) ⟨1, 1, cfg 1 2 0⟩ f) := by
  refine ⟨⟨_, .vcmp 1 2 3 false 6 _ ⟨2, 2, cfg 1 2 0⟩ ⟨3, 3, cfg 1 2 0⟩ rfl rfl ?_ rfl ?_ ?_⟩,
    ⟨_, .vdkadd 1 2 3 _ ⟨2, 2, cfg 1 2 0xF⟩ ⟨3, 3, cfg 1 2 0xF⟩ rfl rfl rfl rfl ?_ ?_⟩,
    ⟨_, .vdkapp 1 2 _ ⟨2, 2, cfg 1 2 0xF⟩ rfl rfl rfl ?_⟩, ⟨_, .vcor 1 2 16 7 _ _ _ ?_ rfl rfl rfl⟩⟩ <;> decide +kernel

/-- SINCOS writes `t1` and `t2`; VCVT converts BF16 to FP32. -/
theorem witness_SincosAndVcvt :
    let v := tiled [(1, cfg 1 2 0), (2, cfg 1 2 1)] []
    ((trio 0).vTile 1 fltFmts = .ok ⟨1, 1, cfg 1 2 0⟩ ∧ (trio 0).vLike ⟨1, 1, cfg 1 2 0⟩ (1 + 1) = .ok ⟨2, 2, cfg 1 2 0⟩ ∧
      (trio 0).vLike ⟨1, 1, cfg 1 2 0⟩ 3 = .ok ⟨3, 3, cfg 1 2 0⟩) ∧
    Converts (place v) v client 1 2 ⟨1, 1, cfg 1 2 0⟩ ⟨2, 2, cfg 1 2 1⟩ 0 0 ∧ v.mode 0 ≠ .rsto := by
  refine ⟨⟨rfl, rfl, rfl⟩, ⟨rfl, rfl, rfl, rfl, rfl⟩, ?_⟩
  decide

/-- R459, R461, R131, R460: a NaN is unordered; BF16 widens; 6.0 of class 3 at step 1,024
reads 0.75. -/
theorem test_conversions :
    let v := tiled [(1, cfg 1 2 0xC), (2, cfg 1 2 0), (3, cfg 1 2 1), (4, cfg 1 1 0xF), (5, cfg 1 1 0)] []
    let s := vec { v with stepv := 1024 } [(2, 0x7FC00000), (3, 0x3F80), (4, 0x030003E840C00000)]
    let r := { s with ranks := [(0, { soloRank with decay := [(3, 0x8000000000)] })] }
    elemAfter (.vcmp 1 2 2 false 6) s 1 32 0 = some 0xFFFFFFFF ∧ elemAfter (.vcmp 1 2 2 false 0) s 1 32 0 = some 0 ∧
    elemAfter (.vcvt 2 3 0) s 2 32 0 = some 0x3F800000 ∧ elemAfter (.vdkapp 5 4) r 5 32 0 = some 0x3F400000 := by
  decide +kernel

/-! ### The matrix unit -/

/-- A drain of one row of 4 FP32 elements from bank 0 (R334). -/
def oneRow : Word := wd (1 * 2 ^ 6 + 4 * 2 ^ 13 + 7 * 2 ^ 24 + 16 * 2 ^ 32)

/-- A strand under a lease; `t1` is a 2 × 2 FP32 tile, `t2` a 2 × 2 FP32 tile, `t3` a 2 × 2 FP32 tile; `g6` is a drain's
destination, `g7` its descriptor, `g8` an MMAG descriptor of one group of 2 rows, `g9` its counts. -/
def math : Strand :=
  { tiled [(1, cfg 2 2 0), (2, cfg 2 2 0), (3, cfg 2 2 0)] [(6, 0x200000), (7, oneRow), (8, 1 * 2 ^ 6 + 2 * 2 ^ 12), (9, 2)] with
    lease := .held 16 4096 }

/-- As `place m`, with bank 0 of core 0 OWNED, the array held, `t1` = ((1, 2), (3, 4)) and `t2` = ((5, 6), (7, 8)) in FP32. -/
def bench (m : Strand) : State :=
  { place m with
    accOwner := [(unitKey 0 0, ⟨2, false⟩)]
    array := [(0, 2)]
    tiles := [(1, BitVec.ofNat 32768 (0x3F800000 + 0x40000000 * 2 ^ 32 + 0x40400000 * 2 ^ 64 + 0x40800000 * 2 ^ 96)),
      (2, BitVec.ofNat 32768 (0x40A00000 + 0x40C00000 * 2 ^ 32 + 0x40E00000 * 2 ^ 64 + 0x41000000 * 2 ^ 96))] }

theorem triple {α β γ : Type} (x : α × β × γ) (c : γ) (h : x.2.2 = c) : x = (x.1, x.2.1, c) := by
  subst h; rfl

theorem witness_MatrixWords :
    MatrixWord (bench math) 2 math client 0 .mlease
      { bench math with
        array := (bench math).array.filter fun e => e.2 ≠ 2
        arrayReq := tabPut (bench math).arrayReq 0 2
        strands := tabPut (tabPut (bench math).strands 2 { math with lease := .none }) 2
          (Strand.setWait { math with lease := .none } .x .array) } ∧
    (∃ t, MatrixWord (bench math) 2 math client 0 .mrel t) ∧
    (∃ t, MatrixWord (bench math) 2 math client 0 (.azero 0 0) t) ∧
    (∃ t, MatrixWord (bench math) 2 math client 0 (.adrain 6 7) t) ∧
    (∃ t, MatrixWord (bench math) 2 math client 0 (.ast 6 7 false) t) := by
  refine ⟨.mlease, ⟨_, .mrel⟩, ⟨_, .azero 0 0 ?_⟩, ⟨_, .adrain 6 7 _ _ ?_ ?_ (triple _ _ ?_)⟩, ⟨_, .ast 6 7 false _ rfl ?_⟩⟩ <;> decide +kernel

theorem witness_Mmag : ∃ t, MatrixWord (bench math) 2 math client 0 (.mmag 8 9 0) t := by
  refine ⟨_, .mmag 8 9 0 ⟨1, 1, cfg 2 2 0⟩ [⟨2, 2, cfg 2 2 0⟩] ⟨⟨1, 1, cfg 2 2 0⟩, 0⟩ [⟨⟨2, 2, cfg 2 2 0⟩, 0⟩] 16 4096
    ?_ ?_ ?_ rfl ?_ rfl ?_ rfl ?_ ?_ ?_⟩ <;> decide +kernel

/-- A strand whose X stream waits for the array at an MLEASE. -/
def asking : Strand := { hero.setWait .x .array with walk := [⟨0, 0, (encode .mlease).headD 0, 0, false⟩] }

theorem witness_MatrixRows :
    (∃ t, MatrixRow { place asking with arrayReq := [(0, 2)] } (.matrixArrayGrant 0) t) ∧
    (∃ t, MatrixRow (bench { math with lease := .held 0 4096 }) (.leaseLapse 0) t) ∧
    (∃ t, MatrixRow (bench { math with asts := [⟨0, 0, 0x200000, oneRow, 0, 0, false, 0, 0, false, false, hero.dmap⟩] }) (.astFinish 0) t) := by
  refine ⟨⟨_, .grant 0 0 2 asking ⟨0, 0, (encode .mlease).headD 0, 0, false⟩ .mlease ?_ ?_ ?_ ?_ ?_⟩,
    ⟨_, .lapse 0 2 { math with lease := .held 0 4096 } 0 4096 ?_ ?_ rfl (.inl rfl)⟩,
    ⟨_, .ast 0 2 { math with asts := [⟨0, 0, 0x200000, oneRow, 0, 0, false, 0, 0, false, false, hero.dmap⟩] } client
      ⟨0, 0, 0x200000, oneRow, 0, 0, false, 0, 0, false, false, hero.dmap⟩ _ _ ?_ rfl ?_ (triple _ _ ?_)⟩⟩ <;> decide +kernel

/-- MMA by hand: ((1, 2), (3, 4)) met with rows (5, 6) and (7, 8) from a zero bank gives ((17, 23), (39, 53)); AADD adds the
tile itself; TUNPK converts back. -/
theorem witness_MatrixCommands :
    ReadyAs (bench math) 2 math client ∧ math.place = some 0 ∧ math.mTile 1 = .ok ⟨1, 1, cfg 2 2 0⟩ ∧
    math.mTile 2 = .ok ⟨2, 2, cfg 2 2 0⟩ ∧ math.vTile 1 aaddFmts = .ok ⟨1, 1, cfg 2 2 0⟩ ∧
    (bench math).planes client [⟨1, 1, cfg 2 2 0⟩] = .inr [⟨⟨1, 1, cfg 2 2 0⟩, 0⟩] ∧
    (bench math).planes client [⟨1, 1, cfg 2 2 0⟩, ⟨2, 2, cfg 2 2 0⟩] =
      .inr [⟨⟨1, 1, cfg 2 2 0⟩, 0⟩, ⟨⟨2, 2, cfg 2 2 0⟩, 0⟩] ∧
    MatrixMayRun (bench math) 2 math 0 0 2 16 4096 :=
  ⟨⟨⟨rfl, rfl, by decide⟩, by decide⟩, rfl, rfl, rfl, rfl, by decide +kernel, by decide +kernel, rfl, by decide, by decide,
    by decide +kernel⟩

/-- Entry of bank 0 after a word, converted to FP32. -/
def accAfter (i : Instr) (s : State) (r e : Nat) : Option Nat :=
  (next i s).map fun t => ((fmtOf 0).rnd .rne false 0 (fAX64.decFloat (bankEntry (t.bank 0 0) r e))).bits

theorem test_matrix :
    accAfter (.mma 0 1 2) (bench math) 0 0 = some 0x41880000 ∧ accAfter (.mma 0 1 2) (bench math) 1 0 = some 0x421C0000 ∧
    accAfter (.mmag 8 9 0) (bench math) 1 1 = some 0x42540000 ∧ accAfter (.aadd 0 1) (bench math) 1 0 = some 0x40400000 := by
  decide +kernel

theorem witness_BankWords :
    Ready (place hero) 2 hero ∧ hero.place = some 0 ∧ (3 : Field).toNat + (4 : Field).toNat < 64 ∧
    (∀ j, (3 : Field).toNat ≤ j → j ≤ (3 : Field).toNat + (4 : Field).toNat →
      ∀ o, tabGet (place hero).accOwner (unitKey 0 j) = some o → o.uid = 2) ∧
    (bench math).banksCheck 2 0 0 1 = none ∧ math.vTile 3 drainFmts = .ok ⟨3, 3, cfg 2 2 0⟩ ∧
    (Tile.mk 3 3 (cfg 2 2 0)).scaled = false ∧ (bench math).rowBanks 2 0 0 2 = none :=
  ⟨ready _ rfl, rfl, by decide, fun j _ _ o h => absurd h (by simp [place, State.solo, State.reset, tabGet]), by decide +kernel,
    rfl, rfl, by decide +kernel⟩

/-- AALLOC of a FREE bank zeroes it (R153); AFREE of a bank that an earlier AST reads leaves it DRAINING (R337). -/
theorem test_banks :
    ((next (.aalloc 1 0) { bench math with accs := [(unitKey 0 1, 9)] }).map fun t =>
      (t.bank 0 1, tabGet t.accOwner (unitKey 0 1))) = some (0, some ⟨2, false⟩) ∧
    ((next (.afree 0 0) (bench { math with
        asts := [⟨0, 0, 0x200000, oneRow, 0, 0, false, 0, 0, false, false, hero.dmap⟩]
        x := { math.x with pos := 1 } })).map fun t => tabGet t.accOwner (unitKey 0 0)) = some (some ⟨2, true⟩) := by
  decide +kernel

/-! ### Messages -/

/-- A load of 8 bytes for stream L of strand 2, to `g5`, at a physical place or through the tables of the target. -/
def asks (phys : Option (Nat × Bool)) (off : Nat) : Access :=
  ⟨2, .l, 0, .load false, 0, 0, off, wd off, 8, 0, 0, 5, 0, phys, 0, true⟩

/-- The strand of the tests while stream L waits for the answer to request 9. -/
def waitsReply : Strand := hero.setWait .l (.reply 9)

def mailbox (m : Strand) (b : Body) : State := inbox (place m) b

def letters (b : Body) (m : Strand) : Prop := Due (mailbox m b) (letter b)

theorem witness_Requests :
    letters (.access (asks (some (0x200000, false)) 0x200000)) hero ∧
    (∃ t, MessageRow (mailbox hero (.access (asks (some (0x200000, false)) 0x200000))) (letter (.access (asks (some (0x200000, false)) 0x200000)))
      .peerRequest t) ∧
    (∃ t, MessageRow (mailbox hero (.access (asks none 0x200000))) (letter (.access (asks none 0x200000))) .peerRequest t) ∧
    (∃ t, MessageRow (mailbox hero (.access (asks none 0x80000000))) (letter (.access (asks none 0x80000000))) .peerRequest t) := by
  refine ⟨rfl, ⟨_, .placed (asks (some (0x200000, false)) 0x200000) 0x200000 _ _ rfl rfl ?_ ?_ rfl⟩,
    ⟨_, .translated _ _ _ _ _ _ rfl rfl ?_ rfl ?_ ?_ rfl⟩, ⟨_, .refused _ _ _ _ rfl rfl ?_ rfl⟩⟩ <;> decide +kernel

/-- A store to 0x200000 that waits for its translation, and a letter that die 1 has sent. -/
def stores : Body := .access { asks none 0x200000 with op := .store }
def foreign (b : Body) : Msg := { letter b with src := 1 }

/-- R174, log 96: a write of another die's strand stays and lets its word go; one that a PEER leaf leads on goes on. -/
theorem witness_TranslatedStores :
    (∃ t, MessageRow { demo with msgs := [foreign stores], subject := 9 } (foreign stores) .peerRequest t) ∧
    (∃ t, MessageRow (inbox peered (.access (asks none 0x200000))) (letter (.access (asks none 0x200000))) .peerRequest t) ∧
    (∃ t, MessageRow (inbox peered stores) (letter stores) .peerRequest t) ∧
    (∃ t, MessageRow (mailbox waitsReply (.goOn 2 .l 0 9)) (letter (.goOn 2 .l 0 9)) .peerResponse t) := by
  refine ⟨⟨_, .goesOn _ _ _ _ rfl rfl ?_ rfl ?_ ?_⟩, ⟨_, .sentOn _ _ _ _ rfl rfl ?_ rfl ?_ ?_⟩,
    ⟨_, .postedOn _ _ _ _ rfl rfl ?_ rfl ?_ ?_⟩, ⟨_, .letGo _ _ _ _ _ rfl rfl rfl rfl⟩⟩ <;> decide +kernel

theorem beside {α β : Type} (x : α × β) (c : β) (h : x.2 = c) : x = (x.1, c) := by
  subst h; rfl

/-- A die with no space that lends 32 frames to a job, or to nobody. -/
def lender (l : List Polder) : State := { still with dies := [(0, { Die.reset with polders := l.map fun p => (3, p) })] }

/-- R17, log 105: a store through a leaf over frames that the die has lent to job 1 changes no byte there. -/
theorem test_lentFrames :
    let s : State := { place far with dies := [(0, { soloDie with polders := [(3, { lease 2 false with job := 1, base := 32 })] })] }
    ((next (.stg 7 6 3 0) s).map fun t => t.rd 0x200000 8) = some 0 ∧ storesAt s client 0x200000 = some (2 ^ 75 + 0x200000) := by
  decide +kernel

theorem witness_PolderRequests :
    let b : Body := .polder (asks (some (2 ^ 32, true)) 0) 0
    (∃ t, MessageRow (inbox (lender [lease 2 false]) b) (letter b) .polderRequest t) ∧
    (∃ t, MessageRow (inbox (lender []) b) (letter b) .polderRequest t) := by
  refine ⟨⟨_, .polder _ _ _ _ _ rfl rfl ?_ ?_ ?_ rfl⟩, ⟨_, .polderLost _ _ _ rfl rfl ?_ ?_⟩⟩ <;> decide +kernel

/-- An access on its way to a byte whose frame has been lent to another job since. -/
theorem witness_StrayedRequest :
    let b : Body := .access (asks (some (2 ^ 32, false)) 0)
    ∃ t, MessageRow (inbox (lender [{ lease 2 false with job := 1 }]) b) (letter b) .peerRequest t := by
  refine ⟨_, .strayed _ _ _ rfl rfl ?_⟩
  decide +kernel

def failed : ErrEntry := ⟨0x1000, 1, cPEER_UNREACHABLE⟩

theorem witness_Responses :
    letters (.reply 2 .l 5 7 0 9) waitsReply ∧
    (∃ t, MessageRow (mailbox waitsReply (.reply 2 .l 5 7 0 9)) (letter (.reply 2 .l 5 7 0 9)) .peerResponse t ∧
      (t.strand 2).map (fun m => (m.reg 5, m.l.pos)) = some (7, 1)) ∧
    (∃ t, MessageRow (mailbox hero (.reply 2 .l 5 7 0 9)) (letter (.reply 2 .l 5 7 0 9)) .peerResponse t) ∧
    (∃ t, MessageRow (mailbox waitsReply (.refuse 2 .l cPEER_UNREACHABLE 0x1000 9))
      (letter (.refuse 2 .l cPEER_UNREACHABLE 0x1000 9)) .peerResponse t) ∧
    (∃ t, MessageRow (mailbox hero (.lendDone 0 1 2 (.sluice 0 4))) (letter (.lendDone 0 1 2 (.sluice 0 4))) .peerResponse t) ∧
    (∃ t, MessageRow (mailbox (hero.setWait .c .lease) (.lendDone 0 1 2 (.strand 2 5))) (letter (.lendDone 0 1 2 (.strand 2 5)))
      .peerResponse t ∧ (t.strand 2).map (fun m => m.reg 5) = some 0x2100) ∧
    (∃ t, MessageRow (mailbox hero (.post 2 failed)) (letter (.post 2 failed)) .errorQueuePost t) ∧
    (∃ t, MessageRow (mailbox { hero with errq := [failed] } (.post 2 failed)) (letter (.post 2 failed)) .errorQueuePost t) ∧
    (∃ t, MessageRow (mailbox { hero with errq := List.replicate 64 failed } (.post 2 failed)) (letter (.post 2 failed))
      .errorQueuePost t) := by
  refine ⟨rfl, ⟨_, .reply _ _ _ _ _ _ _ rfl rfl rfl rfl, ?_⟩, ⟨_, .late _ _ _ _ _ _ _ rfl rfl ?_⟩,
    ⟨_, .refusal _ _ _ _ _ _ rfl rfl rfl⟩, ⟨_, .leaseOutcome _ _ _ _ _ rfl⟩,
    ⟨_, .leaseStatus _ _ _ _ _ _ rfl rfl rfl rfl, ?_⟩, ⟨_, .postedFirst _ _ _ rfl rfl rfl⟩,
    ⟨_, .posted _ _ _ rfl rfl ?_ ?_⟩, ⟨_, .postedFull _ _ _ rfl rfl ?_⟩⟩ <;> decide +kernel

/-- A CAG of two members of 16 bytes, at its endpoint before and after it begins. -/
def joint (begun : Bool) : Cmd :=
  { flying with
    op := .cag, stream := .s, begun := begun, left := 1, members := [0, 1], pos := if begun then some 0 else none
    head := some ⟨0, 0, 0, false, 16, 0, 2, true, false, false⟩ }

def jointHead : CollHead := ⟨0, 0, 0, false, 16, 0, 2, true, false, false⟩

/-- The endpoint table of the rank, at 0x310000, names die 0 for both ranks of the job. -/
def jointState (k : Cmd) (b : Body) : State :=
  inbox { place (copying k) with
    ranks := [(0, { commRank with endpbase := 0x310000 })]
    mem := Memory.writeNat (Memory.writeNat (place hero).mem 0x300000 4 0x10000) 0x310000 16 (2 ^ 63 + 2 ^ 127) } b

/-- The state in an answer. -/
def okOr {α : Type} (d : α) : Res α → α
  | .ok a => a
  | _ => d

theorem isOk {α : Type} (d : α) (x : Res α) (h : (match x with | .ok _ => true | _ => false) = true) : x = .ok (okOr d x) := by
  cases x <;> simp_all [okOr]

theorem isSome {α : Type} (d : α) (x : Option α) (h : x.isSome = true) : x = some (x.getD d) := by
  cases x <;> simp_all

theorem witness_CollectiveMessages :
    (∃ t, MessageRow (jointState (joint false) (.coll ⟨0, 0, jointHead, .start, []⟩)) (letter (.coll ⟨0, 0, jointHead, .start, []⟩))
      .collectiveMessage t) ∧
    (∃ t, MessageRow (jointState (joint true) (.coll ⟨1, 0, jointHead, .bytes 1 1, [1, 2, 3, 4]⟩))
      (letter (.coll ⟨1, 0, jointHead, .bytes 1 1, [1, 2, 3, 4]⟩)) .collectiveMessage t) ∧
    (∃ t, MessageRow (jointState (joint true) (.abort 0 0 0)) (letter (.abort 0 0 0)) .collectiveAbort t) ∧
    (∃ t, MessageRow (jointState { joint true with state := .stopped } (.abort 0 0 0)) (letter (.abort 0 0 0)) .collectiveAbort t) ∧
    (∃ t, MessageRow (jointState flying (.abort 0 (-1) 0)) (letter (.abort 0 (-1) 0)) .collectiveAbort t) ∧
    (∃ t, MessageRow (jointState flying (.endpoint 0 1 0x8000000000000400)) (letter (.endpoint 0 1 0x8000000000000400))
      .endpointUpdate t) := by
  refine ⟨⟨_, .begins _ _ _ _ _ _ _ _ _ _ 0 [0, 1] _ (List.replicate 4 0) rfl rfl rfl (isSome (hero, client, flying) _ ?_) rfl ?_ ?_ rfl
      ?_ (beside _ _ ?_) (beside _ _ ?_)⟩,
    ⟨_, .hop _ _ _ _ _ _ _ _ _ [] _ rfl rfl rfl (isSome (hero, client, flying) _ ?_) rfl ?_ ?_ ?_ ?_ (beside _ _ ?_) rfl⟩,
    ⟨_, .abortTorn _ _ _ _ _ _ _ _ _ _ _ _ _ rfl rfl rfl (isSome (hero, client, flying) _ ?_) rfl rfl (isDoneE demo _ ?_)
      (isDoneE demo _ ?_)⟩,
    ⟨_, .abort _ _ _ _ _ _ _ _ _ _ _ _ rfl rfl rfl (isSome (hero, client, flying) _ ?_) ?_ (isDoneE demo _ ?_)
      (isDoneE demo _ ?_)⟩, ⟨_, .aborted _ _ _ _ rfl rfl rfl ?_⟩,
    ⟨_, .endpoint _ _ _ _ rfl (isDoneE demo _ ?_)⟩⟩ <;> decide +kernel

/-! ### Cells between dies, flits -/

def cellOf (off : Nat) : CellAddr := ⟨2, 0, 0, off, wd off, 0, none, 0⟩

theorem witness_CellRows :
    (∃ t, CellRow (mailbox hero (.cellReq (cellOf 0x200040) true)) (letter (.cellReq (cellOf 0x200040) true)) .cellRequest t) ∧
    (∃ t, CellRow (mailbox hero (.cellRel (cellOf 0x200040) true)) (letter (.cellRel (cellOf 0x200040) true)) .cellRelease t) ∧
    (∃ t, CellRow (mailbox (hero.setWait .c .cell) (.cellGrant 2 true true)) (letter (.cellGrant 2 true true)) .cellGrant t) ∧
    (∃ t, CellRow (mailbox asksCell (.cellGrant 2 true true)) (letter (.cellGrant 2 true true)) .cellGrant t) := by
  refine ⟨⟨_, .request _ _ _ 0x200040 (cellOf 0x200040) 0 rfl (beside _ _ ?_) ?_⟩,
    ⟨_, .release _ _ _ 0x200040 (cellOf 0x200040) 0 rfl (beside _ _ ?_) ?_⟩,
    ⟨_, .grant _ _ _ rfl rfl rfl rfl⟩, ⟨_, .grantLater _ _ _ rfl rfl ?_⟩⟩ <;> decide +kernel

/-- A load request from die 0 of package 0 to die 0 of package 1, at a package that has or has not a route there. -/
def flit (at_ : Pkg) (hops age : Nat) : Msg := ⟨9, 0, 1, at_, hops, false, 0, false, age, 0, 0, .access (asks none 0)⟩

def carried (q : Msg) (e : Word) : State :=
  { demo with
    msgs := [q], subject := 9, pkgs := [(0, { Package.up with routes := [(1, e)] }), (1, { Package.up with routes := [(1, e)] })]
    links := [(0, 1), (1, 0)] }

/-- A store without an answer, which posts to the error queue. -/
def posting (q : Msg) : Msg := { q with body := .access { asks none 0 with op := .store, waits := false } }

/-- One that waits, for its translation, or for an answer from its own die by way of another. -/
def waitingStore (q : Msg) (phys : Option (Nat × Bool)) : Msg := { q with body := .access { asks phys 0 with op := .store } }

theorem witness_Flits :
    (carried (flit 1 1 0) (BitVec.ofNat 64 (2 ^ 63))).hop 1 0 1 0 1 = .deliver ∧
    (carried (flit 0 6 0) 0).alive 0 = true ∧ (flit 0 6 0).body.asks = true ∧ bit ((carried (flit 0 6 0) 0).route 0 1) 63 = false ∧
    (next .requestTimeout (carried (flit 0 0 (2 ^ 20)) 0)).map (fun t => t.msgs.map (fun q => q.body)) =
      some [.refuse 2 .l cPEER_UNREACHABLE 0 9] ∧
    (next .requestTimeout (carried (posting (flit 0 0 (2 ^ 20))) 0)).map (fun t => t.msgs.map (fun q => q.body)) =
      some [.post 2 ⟨0, peerOf 1, cPEER_UNREACHABLE⟩] ∧
    (next .requestTimeout (carried (waitingStore (flit 0 0 (2 ^ 20)) none) 0)).map (fun t => t.msgs.map (fun q => q.body)) =
      some [.post 2 ⟨0, peerOf 1, cPEER_UNREACHABLE⟩, .goOn 2 .l 0 9] ∧
    (next .requestTimeout (carried (waitingStore (flit 0 0 (2 ^ 20)) (some (0, false))) 0)).map (fun t => t.msgs.map (fun q => q.body)) =
      some [.refuse 2 .l cPEER_UNREACHABLE 0 9] ∧
    next .requestTimeout (carried (flit 0 0 (2 ^ 20 - 1)) 0) = some (carried (flit 0 0 (2 ^ 20 - 1)) 0) := by
  refine ⟨rfl, rfl, rfl, rfl, ?_, ?_, ?_, ?_, rfl⟩ <;> decide +kernel

/-! ### Scheduling -/

/-- The record of the tests' nest, at 0x200000. -/
def recorded : List Host.Cell := Memory.writeNat still.mem 0x200000 64 (packNat 64 (soloRecord.toList.map BitVec.toNat))

/-- The rank with a record at 0x200000 at the head of queue 1. -/
def queueing : Rank := { soloRank with queues := vset soloRank.queues 1 [⟨0x200000, true, false⟩] }

theorem witness_Activation :
    (∃ t, ScheduleRow { still with ranks := [(0, queueing)], mem := recorded } (.nestActivate 0) t) ∧
    (∃ t, ScheduleRow { still with ranks := [(0, queueing)] } (.nestActivate 0) t) ∧
    (∃ t, ScheduleRow still (.nestActivate 0) t) := by
  refine ⟨⟨_, .activate 0 _ _ rfl ?_ rfl ?_ (.pass _ _ _ { still with ranks := [(0, queueing)], mem := recorded } .empty _ ?_
      (.inl rfl) (.ready _ _ _ _ _ soloRecord (beside _ _ ?_) rfl))⟩,
    ⟨_, .activate 0 _ _ rfl ?_ rfl ?_ (.pass _ _ _ { still with ranks := [(0, queueing)] } .empty _ ?_
      (.inl rfl) (.malformed _ _ _ _ _ 0 (beside _ _ ?_) rfl))⟩,
    ⟨_, .activate 0 _ _ rfl ?_ rfl ?_ (.pass _ _ _ still .empty _ ?_ (.inl rfl) (.pass _ _ _ still .empty _ ?_ (.inl rfl)
      (.pass _ _ _ still .empty _ ?_ (.inl rfl) (.pass _ _ _ still .empty _ ?_ (.inl rfl) (.done _)))))⟩⟩ <;> decide +kernel

/-- The fabric with one ordinal of its nest to dispatch. -/
def undispatched : State := { still with nests := [(0, { soloNest with todo := [(0, 0)], dispatched := 0 })], gangs := [] }

/-- The rank with a job of switch-outs. -/
def switching (j : SwitchJob) (n : Nat) : State := { still with ranks := [(0, { soloRank with jobs := [j], nimg := n })] }

theorem five {α β γ δ ε : Type} (o : Option (α × β × γ × δ × ε)) (h : o.isSome = true) : ∃ a b c d e, o = some (a, b, c, d, e) := by
  cases o with
  | none => simp at h
  | some v => exact ⟨_, _, _, _, _, rfl⟩

theorem fifth {α β γ δ ε : Type} (o : Option (α × β × γ × δ × ε)) (d : α × β × γ × δ × ε) (h : o.isSome = true) :
    o = some ((o.getD d).1, (o.getD d).2.1, (o.getD d).2.2.1, (o.getD d).2.2.2.1, (o.getD d).2.2.2.2) := by
  cases o with
  | none => simp at h
  | some v => rfl

/-- A gang that waits to be resumed. -/
def suspended : State := { still with gangs := [(1, { soloGang with resident := false })] }

/-- A strand whose L stream has met its second LS segment unbound. -/
def unbound : Strand := hero.setWait .l (.segment (ls + 0x10000))

theorem isDone (x : Placed) (h : (match x with | .done _ => true | _ => false) = true) : x = .done x.state := by
  cases x <;> simp_all [Placed.state]

theorem isLater (x : Placed) (h : (match x with | .waits _ => true | _ => false) = true) : x = .waits x.state := by
  cases x <;> simp_all [Placed.state]

/-- Every segment of core 0 belongs to a gang that is out, whose save frame lies in a page that is held. -/
def crowded : State :=
  { place unbound with
    gangs := [(1, soloGang), (7, { soloGang with resident := false, image := some 0, live := [] })]
    ranks := [(0, { soloRank with nimg := 1 })]
    lsSeg := (List.range 24).map fun i => (i, ⟨0, if i = 0 then 1 else 7, i, 0, if i = 0 then .active else .idle⟩)
    dies := [(0, { soloDie with held := [⟨0, 0, 0, 2, .procedure 2 0 true 0⟩] })] }

theorem witness_Scheduling :
    (∃ t, ScheduleRow undispatched (.gangDispatch 0 0) t) ∧
    (∃ t, ScheduleRow suspended (.gangResume 0 0) t) ∧
    (∃ t, ScheduleRow (switching ⟨[1], .flip⟩ 1) (.gangSwitchOut 0) t) ∧
    (∃ t, ScheduleRow (switching ⟨[1], .flip⟩ 0) (.gangSwitchOut 0) t) ∧
    (∃ t, ScheduleRow (switching ⟨[], .exchange 0 none 0 0 4⟩ 1) (.partitionExchangeDone 0) t) ∧
    (∃ t, ScheduleRow { switching ⟨[], .exchange 0 (some 1) 0 0 4⟩ 1 with
        ranks := [(0, { soloRank with jobs := [⟨[], .exchange 0 (some 1) 0 0 4⟩] }), (1, { soloRank with clusters := [] })] }
      (.partitionExchangeDone 0) t) ∧
    (∃ t, ScheduleRow (place unbound) (.segmentBind 0 (ls + 0x10000)) t) := by
  obtain ⟨_, _, _, _, _, hd⟩ := five (((undispatched.placePartition 0 0).nestsOf 0).findSome?
      (nextOf (undispatched.placePartition 0 0) soloRank 0 0))
    (by decide +kernel)
  have hr := fifth ((suspended.placePartition 0 0).resumable 0 soloRank 0 0) (0, soloGang, soloNest, 0, []) (by decide +kernel)
  refine ⟨⟨_, .dispatch 0 0 _ _ 0 _ _ _ _ _ rfl rfl rfl rfl rfl ?_ hd⟩, 
    ⟨_, .resume 0 0 _ _ 0 _ _ _ _ _ _ rfl rfl rfl rfl rfl hr (isDoneE demo _ ?_)⟩,
    ⟨_, .switchOut 0 _ _ _ 1 _ _ 0 _ rfl rfl rfl rfl rfl ?_ ?_ (isDoneE demo _ ?_)⟩,
    ⟨_, .noImage 0 _ _ _ 1 _ _ rfl rfl rfl rfl rfl ?_ rfl ?_⟩, ⟨_, .leaves 0 _ _ _ _ _ _ _ rfl rfl rfl⟩,
    ⟨_, .exchange 0 _ _ _ _ _ _ _ _ _ _ rfl rfl rfl rfl rfl rfl rfl⟩,
    ⟨_, .bind 0 _ _ _ _ _ (.segment (ls + 0x10000)) _ rfl rfl ?_ ?_ rfl rfl (isDone _ ?_)⟩⟩ <;> decide +kernel

/-- A binding that has to wait for its save frame, and a segment that has been bound since the strand met it. -/
theorem witness_SegmentBind :
    (∃ t, ScheduleRow crowded (.segmentBind 0 (ls + 0x10000)) t) ∧
    (∃ t, ScheduleRow (place (hero.setWait .l (.segment ls))) (.segmentBind 0 ls) t) := by
  refine ⟨⟨_, .bindLater 0 _ _ _ _ _ (.segment (ls + 0x10000)) _ rfl rfl ?_ ?_ rfl rfl (isLater _ ?_)⟩,
    ⟨_, .bound 0 _ _ _ _ (lsAddr 0 0 0) rfl rfl ?_ ?_ rfl⟩⟩ <;> decide +kernel

/-- A copy that fails while its counter lies in a save frame whose page is held. -/
def framed : Cmd := { lostCopy with counter := ls + 0x10100 }

def frameHeld : State := { crowded with strands := [(2, copying framed)], gangs := [(1, { soloGang with image := some 0 })] }

theorem witness_FrameHeld :
    (∃ t, CommandRow frameHeld 0 0 2 (copying framed) client framed (.chunkFault 0 0) t ∧ next (.chunkFault 0 0) frameHeld = some t) ∧
    frameHeld.runningCmd 0 0 = some (2, copying framed, client, framed) := by
  have later (x : Try State) (h : (match x with | .error _ => true | _ => false) = true) :
      x = .error (match x with | .error s => s | .ok s => s) := by
    cases x with
    | error s => rfl
    | ok s => cases h
  refine ⟨⟨_, .frameHeld _ _ _ _ ?_ ?_ rfl (later _ ?_), ?_⟩, ?_⟩ <;> decide +kernel

theorem witness_DispatchedStrandsAreCold :
    [((0 : Nat), (0 : Nat))][0]? = some (0, 0) ∧
    ((next (.gangDispatch 0 0) undispatched).bind fun t => t.strand 4).map (fun m => (m.reg 5, m.win, m.size)) = some (0, 256, 64) ∧
    (∀ e ∈ undispatched.accOwner, e.2.uid ≠ undispatched.ids + 1 + 0) :=
  ⟨rfl, by decide +kernel, by decide⟩

/-! ### A rank's engines -/

/-- A rank that moves to die 1024, has a sweep open, or a snapshot. -/
def moved : Rank := { soloRank with precopy := some ⟨1024, 0, [], [], [], [], 0, false⟩ }
def swept (s0 : Nat) : Rank := { soloRank with sweeps := [⟨BitVec.ofNat 48 s0, [], [⟨0x20, 1⟩], []⟩] }
def snapping (todo : List Nat) : Rank := { soloRank with snap := some ⟨⟨2 ^ 62, 0⟩, 0, todo, [], 0, []⟩ }

def ranked (r : Rank) : State := { still with ranks := [(0, r)] }

theorem witness_RankEngines :
    (∃ t, EngineRow (ranked moved) 0 moved (.precopyRound 0) t) ∧
    (∃ t, EngineRow (ranked (swept (2 ^ 22))) 0 (swept (2 ^ 22)) (.sweepPage 0) t) ∧
    (∃ t, EngineRow (ranked (snapping [0x20, 0x21])) 0 (snapping [0x20, 0x21]) (.snapshotPageCopy 0) t) ∧
    (∃ t, EngineRow (ranked (snapping [])) 0 (snapping []) (.snapshotPageCopy 0) t) := by
  refine ⟨⟨_, .short _ rfl rfl rfl rfl rfl ?_⟩,
    ⟨_, .rewritten _ _ _ _ ⟨0, 0, 0x200000, false, true⟩ _ ⟨0, 0, 0x200000, false, true⟩ rfl rfl rfl rfl ?_ (beside _ _ ?_) ?_ (beside _ _ ?_)⟩,
    ⟨_, .copied _ 0x20 [0x21] _ ⟨0, 0, 0x200000, false, true⟩ rfl rfl ?_ rfl ?_ ?_ (beside _ _ ?_)⟩, ⟨_, .sealed _ rfl rfl⟩⟩ <;> decide +kernel

theorem readNat_below (m : List Host.Cell) (a n : Nat) (h : ∀ e ∈ m, a + n ≤ e.1) : Memory.readNat m a n = 0 := by
  induction n generalizing a with
  | zero => rfl
  | succ n ih =>
    have h1 := Memory.read_below m a fun e he => by have := h e he; omega
    have h2 := ih (a + 1) fun e he => by have := h e he; omega
    simp only [Memory.readNat, h1, h2]; rfl

/-- The first page of the space, all zero, swept at step 0; the frames of a rank without tables. -/
theorem witness_SweptPage :
    (∃ t, EngineRow { ranked moved with dies := [] } 0 moved (.precopyRound 0) t) ∧
    ∃ t, EngineRow (ranked { soloRank with sweeps := [⟨0, [], [⟨0, 1⟩], []⟩] }) 0 { soloRank with sweeps := [⟨0, [], [⟨0, 1⟩], []⟩] }
      (.sweepPage 0) t := by
  refine ⟨⟨_, .round _ _ _ rfl rfl rfl rfl rfl rfl⟩, _, .swept _ _ _ _ ⟨0, 0, 0, false, true⟩ rfl rfl rfl rfl ?_ (beside _ _ ?_) ?_⟩
  · decide +kernel
  · decide +kernel
  · refine List.any_eq_false.mpr fun i hi => ?_
    have hi : i < 8192 := List.mem_range.mp hi
    have h : ∀ e ∈ still.mem, 65536 ≤ e.1 := by decide +kernel
    have h0 := readNat_below still.mem (0 + 8 * i) 8 fun e he => by have := h e he; omega
    have h1 : DecayView.sweep ⟨soloRank.decay, (0 : BitVec 48).toNat % 2 ^ 24⟩ 0 = .keep := by decide
    have h2 : DecayView.sweep ⟨soloRank.decay, (0 : BitVec 48).toNat % 2 ^ 24⟩ (Memory.readNat still.mem (0 + 8 * i) 8) = .keep := by
      rw [h0]; exact h1
    exact fun h => absurd (h2 ▸ h) (by decide)
/-! ### The platform -/

/-- Package 0 in a start. -/
def started (kind : BitVec 2) (step attempt : Nat) : Package :=
  { Package.up with state := .starting, kind := kind, lastKind := kind, step := step, attempt := attempt }

def pkged (k : Package) : State := { still with pkgs := [(0, k)] }

def off_ : Package := { Package.reset with warmok := true }

theorem witness_PackageStarts :
    (∃ t, PackageRow still 0 Package.up (.startCold 0) t) ∧ (∃ t, PackageRow (pkged off_) 0 off_ (.startWarm 0) t) ∧
    (∃ t, PackageRow (pkged { off_ with resumable := true, lastKind := 2 }) 0 { off_ with resumable := true, lastKind := 2 }
      (.startWarm 0) t) ∧
    (∃ t, PackageRow (pkged Package.reset) 0 Package.reset (.startWarm 0) t) ∧
    (∃ t, PackageRow (pkged (started 2 2 1)) 0 (started 2 2 1) (.startStepDone 0 9) t) ∧
    (∃ t, PackageRow (pkged (started 1 3 1)) 0 (started 1 3 1) (.startStepDone 0 9) t) ∧
    (∃ t, PackageRow (pkged (started 1 7 1)) 0 (started 1 7 1) (.startStepDone 0 9) t) ∧
    (∃ t, PackageRow (pkged (started 1 9 1)) 0 (started 1 9 1) (.startStepDone 0 9) t) ∧
    (∃ t, PackageRow (pkged (started 1 4 2)) 0 (started 1 4 2) (.startStepFail 0 5 9) t) ∧
    (∃ t, PackageRow (pkged (started 1 4 3)) 0 (started 1 4 3) (.startStepFail 0 5 9) t) ∧
    (∃ t, PackageRow (pkged (started 2 2 1)) 0 (started 2 2 1) (.startStepFail 0 5 9) t) := by
  refine ⟨⟨_, .coldIgnored (.inr rfl)⟩, ⟨_, .warm (.inl rfl) rfl (.inl rfl)⟩, ⟨_, .warmAgain (.inl rfl) rfl rfl rfl⟩,
    ⟨_, .warmIgnored rfl⟩, ⟨_, .stepSkipped _ rfl ?_ ?_ rfl⟩, ⟨_, .stepDone _ rfl ?_ ?_ ?_ ?_ ?_ rfl⟩, ⟨_, .configLoaded _ rfl rfl⟩,
    ⟨_, .lastCold _ rfl rfl rfl⟩, ⟨_, .stepFails _ _ rfl ?_ ?_ rfl ?_⟩, ⟨_, .startFails _ _ rfl ?_ ?_ rfl ?_⟩,
    ⟨_, .turnsCold _ _ rfl ?_ ?_ rfl rfl ?_⟩⟩ <;> decide

/-- A cold start from OFF and from a failed one, the clearing of SRAM and DRAM, and the end of a warm start. -/
theorem witness_PlatformStarts :
    (∃ t, PlatformRow (pkged off_) 0 (.startCold 0) t) ∧
    (∃ t, PlatformRow (pkged { off_ with resumable := true, lastKind := 1 }) 0 (.startCold 0) t) ∧
    (∃ t, PlatformRow (pkged (started 1 5 1)) 0 (.startStepDone 0 9) t) ∧
    (∃ t, PlatformRow (pkged (started 1 6 1)) 0 (.startStepDone 0 9) t) ∧
    (∃ t, PlatformRow (pkged (started 2 9 1)) 0 (.startStepDone 0 9) t) := by
  refine ⟨⟨_, .cold (.inl rfl) (.inl rfl)⟩, ⟨_, .coldAgain (.inl rfl) rfl rfl⟩, ⟨_, .sram 9 rfl rfl⟩, ⟨_, .dram 9 rfl rfl ?_⟩,
    ⟨_, .reconciled 9 rfl rfl rfl⟩⟩
  decide

/-- A package whose rings are set. -/
def rings : Package :=
  { Package.up with cqset := true, cqbase := 0x1000, cqsize := 16, nqset := true, nqbase := 0x2000, nqsize := 16 }

theorem witness_PackageWindow :
    (∃ t, PackageRow (pkged rings) 0 rings (.sqtailDoorbell 0 3) t) ∧
    (∃ t, PackageRow (pkged { rings with sqtail := 200 }) 0 { rings with sqtail := 200 } (.sqtailDoorbell 0 100) t) ∧
    (∃ t, PackageRow (pkged rings) 0 rings (.cqheadAdvance 0 1) t) ∧
    (∃ t, PackageRow (pkged rings) 0 rings (.hostRegisterWrite 0 0x3FF8 1) t) ∧
    (∃ t, PackageRow (pkged rings) 0 rings (.hostRegisterWrite 0 0x4018 64) t) ∧
    (∃ t, PackageRow (pkged rings) 0 rings (.hostRegisterWrite 0 0x4018 3) t) ∧
    (∃ t, PackageRow (pkged rings) 0 rings (.hostRegisterWrite 0 0x4040 2) t) ∧
    (∃ t, PackageRow (pkged Package.reset) 0 Package.reset (.hostRegisterWrite 0 0x4040 2) t) ∧
    (∃ t, PackageRow (pkged rings) 0 rings (.i3cLimitWrite 0 0 1900) t) ∧
    (∃ t, PackageRow (pkged rings) 0 rings (.i3cLimitWrite 0 1 70) t) ∧
    (∃ t, PackageRow (pkged rings) 0 rings (.i3cLimitWrite 0 0 599) t) ∧
    (∃ t, PackageRow (pkged rings) 0 rings (.routeEntryLoad 0 1 7) t) ∧
    (∃ t, PackageRow (pkged rings) 0 rings (.i3cWindowRead 0 0x10) t) := by
  refine ⟨⟨_, .doorbell _ rfl ?_⟩, ⟨_, .overrun _ rfl ?_⟩, ⟨_, .cqhead _ rfl rfl⟩, ⟨_, .windowWord _ _ rfl ?_ rfl⟩,
    ⟨_, .cqsize _ rfl rfl rfl rfl rfl rfl⟩, ⟨_, .cqsizeIgnored _ rfl rfl⟩, ⟨_, .nqhead _ rfl⟩, ⟨_, .closed _ _ rfl ?_⟩,
    ⟨_, .plimit _ rfl ?_ ?_⟩, ⟨_, .tlimit _ rfl ?_ ?_⟩, ⟨_, .limitIgnored _ _ rfl (.inl ⟨rfl, .inl ?_⟩)⟩, ⟨_, .route _ _⟩,
    ⟨_, .window _ _ rfl⟩⟩ <;> decide

def lone : State := { still with ranks := [], dies := [] }

theorem witness_PlatformRows :
    (∃ t, PlatformRow still 0 (.stopCold 0 1) t) ∧ (∃ t, PlatformRow lone 0 (.stopWarm 0) t) ∧
    (∃ t, PlatformRow still 0 (.thermalTrip 0) t) ∧ (∃ t, PlatformRow (pkged (started 1 1 1)) 0 (.startStepDone 0 9) t) ∧
    (∃ t, PlatformRow still 0 (.correctedError 0 1) t) ∧ (∃ t, PlatformRow still 0 (.linkRetry 1024 2) t) ∧
    (∃ t, PlatformRow still 0 (.limitEngage 0 true true 1) t) ∧ (∃ t, PlatformRow lone 0 (.packageLost 0 5) t) := by
  refine ⟨⟨_, .stopCold _ rfl ?_⟩, ⟨_, .stopWarm rfl rfl⟩, ⟨_, .trip rfl rfl⟩, ⟨_, .ports _ rfl rfl⟩, ⟨_, .corrected _ _ rfl⟩,
    ⟨_, .retry _ _ rfl⟩, ⟨_, .limits _ _ _ rfl⟩, ⟨_, .lost _ rfl fun _ => rfl⟩⟩
  decide

theorem witness_ColdStop : MemOk still ∧ (still.pkg 0).state = .started ∧ (1 : BitVec 2) ≠ 2 := ⟨show Memory.wf still.mem = true by decide, rfl, by decide⟩

/-- R278, R290: the log entry of a step that took 9 cycles. -/
theorem test_start :
    ((next (.startStepDone 0 9) (pkged (started 1 3 1))).map fun t => ((t.pkg 0).step, (t.pkg 0).log.getLast?)) =
      some (4, some (wd (3 + 1 * 16 + 9 * 2 ^ 24))) := by decide
/-! ### The Sluice -/

/-- A command for rank 0 of job 0 with an opcode and W2 to W7. -/
def cmd (op : Nat) (w2 w3 w4 w5 w6 w7 : Word) : Command := ⟨wd op, 0, w2, w3, w4, w5, w6, w7⟩

def port : State := pkged rings

theorem witness_CommandsAreGated :
    (still.pkg 0).accepts = false ∧ (port.pkg 0).accepts = true ∧ (port.pkg 0).loaded = true ∧
    commandForm (cmd 0x200 0 0 0 0 0 0) = false ∧
    ((pkged { rings with state := .starting, step := 5 }).pkg 0).accepts = true ∧
    ((pkged { rings with state := .starting, step := 5 }).pkg 0).loaded = false := by decide

def deviceOk (c : Command) (i : Instr) : Prop := Accepted port 0 c ∧ ∃ v t, DeviceCommand port 0 c i v t

/-- A port whose die holds frames and tables, and a package with a routed neighbour. -/
def pooled : State := { port with dies := [(0, { soloDie with hbmPool := [⟨16, 8⟩], hbmTables := [⟨64, 64⟩] })] }

def descriptor : State := { port with ranks := [], mem := Memory.writeNat port.mem (hostAddr 0 0x3000) 8 0x1000 }

theorem witness_DeviceCommands :
    deviceOk (cmd 0x18 0x10 0 0 0 0 0) (.swread 0 (cmd 0x18 0x10 0 0 0 0 0)) ∧
    deviceOk (cmd 0x19 0x10 0x4000 8 0 0 0) (.swcopy 0 (cmd 0x19 0x10 0x4000 8 0 0 0)) ∧
    deviceOk (cmd 0x1A 0 600 0 0 0 0) (.limitPlimit 0 (cmd 0x1A 0 600 0 0 0 0)) ∧
    deviceOk (cmd 0x1A 1 100 0 0 0 0) (.limitTlimit 0 (cmd 0x1A 1 100 0 0 0 0)) ∧
    deviceOk (cmd 0x1A 0x1307 9 0 0 0 0) (.limitThreshold 0 (cmd 0x1A 0x1307 9 0 0 0 0)) ∧
    deviceOk (cmd 0x09 1 5 7 0x10001 0 0) (.tablewSpaceRoot 0 (cmd 0x09 1 5 7 0x10001 0 0)) ∧
    deviceOk (cmd 0x09 2 255 0x8000 0 0 0) (.tablewReplicaSet 0 (cmd 0x09 2 255 0x8000 0 0 0)) ∧
    deviceOk (cmd 0x09 3 7 0xFFFF 0 0 0) (.tablewMthr 0 (cmd 0x09 3 7 0xFFFF 0 0 0)) ∧
    deviceOk (cmd 0x09 4 0 4 2 0 0) (.tablewFramePoolAdd 0 (cmd 0x09 4 0 4 2 0 0)) ∧
    deviceOk (cmd 0x09 5 0 0x2000 2 0 0) (.tablewTablePoolAdd 0 (cmd 0x09 5 0 0x2000 2 0 0)) := by
  refine ⟨⟨⟨rfl, rfl, ?_⟩, _, _, .swread _ _ ?_ ?_ rfl⟩, ⟨⟨rfl, rfl, ?_⟩, _, _, .swcopy ?_ ?_ ?_ ?_⟩, ⟨⟨rfl, rfl, ?_⟩, _, _, .plimit rfl ?_ ?_⟩,
    ⟨⟨rfl, rfl, ?_⟩, _, _, .tlimit rfl ?_ ?_⟩, ⟨⟨rfl, rfl, ?_⟩, _, _, .threshold ?_ ?_ ?_ ?_⟩,
    ⟨⟨rfl, rfl, ?_⟩, _, _, .spaceRoot ⟨rfl, rfl⟩ ?_ ?_ rfl rfl rfl ?_ rfl rfl⟩, ⟨⟨rfl, rfl, ?_⟩, _, _, .replicaSet ⟨rfl, rfl⟩ ?_ ?_ ?_ rfl rfl⟩,
    ⟨⟨rfl, rfl, ?_⟩, _, _, .mthr ⟨rfl, rfl⟩ ?_ ?_ rfl rfl rfl⟩, ⟨⟨rfl, rfl, ?_⟩, _, _, .framesIn ⟨rfl, rfl⟩ ?_ ?_ ?_⟩,
    ⟨⟨rfl, rfl, ?_⟩, _, _, .tablesIn ⟨rfl, rfl⟩ ?_ rfl ?_ ?_⟩⟩ <;> decide +kernel

/-- R32, R284: of two words the first is copied and the command stays, and at the next turn the second, with the completion. -/
theorem witness_SwcopyGoesOn :
    let c := cmd 0x19 0x10 0x4000 16 0 0 0
    Accepted port 0 c ∧ (port.pkg 0).copied = 0 ∧ 0 + (8 - (c.w2.toNat + 0) % 8) < c.w4.toNat ∧
    ((next (.swcopy 0 c) port).map fun t => ((t.pkg 0).copied, (t.pkg 0).sqhead)) = some (8, (port.pkg 0).sqhead) ∧
    (((next (.swcopy 0 c) port).bind (next (.swcopy 0 c))).map fun t =>
      ((t.pkg 0).copied, (t.pkg 0).sqhead, t.rd (hostAddr 0 0x1000) 3)) = some (0, (port.pkg 0).sqhead + 1, 0) := by
  refine ⟨⟨rfl, rfl, ?_⟩, rfl, ?_, ?_, ?_⟩ <;> decide +kernel

theorem witness_MoreDeviceCommands :
    (∃ v t, DeviceCommand pooled 0 (cmd 0x09 4 2 16 8 0 0) (.tablewFramePoolRemove 0 (cmd 0x09 4 2 16 8 0 0)) v t) ∧
    (∃ v t, DeviceCommand pooled 0 (cmd 0x09 5 2 0x4000 1 0 0) (.tablewTablePoolRemove 0 (cmd 0x09 5 2 0x4000 1 0 0)) v t) ∧
    (∃ v t, DeviceCommand descriptor 0 (cmd 0x17 0 0x3000 0 0 0 0) (.rankCreate 0 (cmd 0x17 0 0x3000 0 0 0 0)) v t) := by
  refine ⟨⟨_, _, .framesOut ⟨rfl, rfl⟩ ?_ ?_ ?_⟩, ⟨_, _, .tablesOut ⟨rfl, rfl⟩ ?_ rfl ?_ ?_⟩,
    ⟨_, _, .create _ _ 0 [] rfl rfl ?_ rfl rfl rfl ?_ ?_ ?_ ?_ ?_ ?_⟩⟩ <;> decide +kernel

/-- Rank 0 runs a command. -/
def rankOk (s : State) (c : Command) (r : Rank) (i : Instr) : Prop :=
  Accepted s 0 c ∧ ForRank s 0 c r ∧ ∃ v t, RankCommand (takenFor s 0 c r) 0 c (woken r) i v t

theorem witness_RankCommands :
    rankOk port (cmd 0x01 0x200000 8 5 0 0 0) soloRank (.write 0 (cmd 0x01 0x200000 8 5 0 0 0)) ∧
    rankOk port (cmd 0x02 0x200000 0x4000 8 0 0 0) soloRank (.copyin 0 (cmd 0x02 0x200000 0x4000 8 0 0 0)) ∧
    rankOk port (cmd 0x03 0x200000 0 0 0 0 0) soloRank (.read 0 (cmd 0x03 0x200000 0 0 0 0 0)) ∧
    rankOk port (cmd 0x04 0x200000 0x4000 8 0 0 0) soloRank (.copyout 0 (cmd 0x04 0x200000 0x4000 8 0 0 0)) ∧
    rankOk port (cmd 0x05 0x200040 9 0 0 0 0) soloRank (.signal 0 (cmd 0x05 0x200040 9 0 0 0 0)) ∧
    rankOk port (cmd 0x06 0x200000 3 0 0 0 0) soloRank (.launch 0 (cmd 0x06 0x200000 3 0 0 0 0)) ∧
    rankOk port (cmd 0x07 1023 7 0 0 0 0) soloRank (.cntw 0 (cmd 0x07 1023 7 0 0 0 0)) ∧
    rankOk port (cmd 0x08 0x300 7 0 0 0 0) soloRank (.csrw 0 (cmd 0x08 0x300 7 0 0 0 0)) ∧
    rankOk port (cmd 0x08 0x49D 7 0 0 0 0) soloRank (.csrw 0 (cmd 0x08 0x49D 7 0 0 0 0)) := by
  refine ⟨⟨⟨rfl, rfl, ?_⟩, ⟨?_, ?_⟩, _, _, .write _ ?_ ?_ (beside _ _ ?_)⟩,
    ⟨⟨rfl, rfl, ?_⟩, ⟨?_, ?_⟩, _, _, .copyin _ ?_ (beside _ _ ?_)⟩, ⟨⟨rfl, rfl, ?_⟩, ⟨?_, ?_⟩, _, _, .read _ 0 ?_ (beside _ _ ?_)⟩,
    ⟨⟨rfl, rfl, ?_⟩, ⟨?_, ?_⟩, _, _, .copyout _ ?_ (beside _ _ ?_)⟩,
    ⟨⟨rfl, rfl, ?_⟩, ⟨?_, ?_⟩, _, _, .signal _ ?_ ?_ ?_ (beside _ _ ?_)⟩,
    ⟨⟨rfl, rfl, ?_⟩, ⟨?_, ?_⟩, _, _, .launch ?_ ?_ ?_⟩, ⟨⟨rfl, rfl, ?_⟩, ⟨?_, ?_⟩, _, _, .cntw ?_ ?_ ?_⟩,
    ⟨⟨rfl, rfl, ?_⟩, ⟨?_, ?_⟩, _, _, .csrw _ ?_ ?_ rfl⟩, ⟨⟨rfl, rfl, ?_⟩, ⟨?_, ?_⟩, _, _, .dmap ?_ ?_⟩⟩ <;> decide +kernel

/-- A rank with an endpoint table at 0x310000, an event and nothing active. -/
def tabled : Rank := { soloRank with endpbase := 0x310000, evq := [⟨5, 0, 0⟩] }

def tabledPort : State := { port with ranks := [(0, tabled)], nests := [], gangs := [] }

/-- The same while the rank's pre-copy runs. -/
def movingPort : State :=
  { tabledPort with ranks := [(0, { tabled with precopy := some ⟨1024, 0, [], [], [], [], 0, false⟩ })] }

theorem witness_MoreRankCommands :
    rankOk tabledPort (cmd 0x09 6 63 0x10002 0x300000 0x100000000 0) tabled
      (.tablewCommunicator 0 (cmd 0x09 6 63 0x10002 0x300000 0x100000000 0)) ∧
    rankOk tabledPort (cmd 0x09 7 0 0x8000000000000000 0 0 0) tabled (.tablewEndpoint 0 (cmd 0x09 7 0 0x8000000000000000 0 0 0)) ∧
    rankOk tabledPort (cmd 0x09 8 0 0x200000 3 0x400000 0) tabled (.tablewSaveBases 0 (cmd 0x09 8 0 0x200000 3 0x400000 0)) ∧
    rankOk tabledPort (cmd 0x0B 1024 0 0 0 0 0) tabled (.migrate 0 (cmd 0x0B 1024 0 0 0 0 0)) ∧
    rankOk tabledPort (cmd 0x1B 0x200000 0 0 0 0 0) tabled (.invalPage 0 (cmd 0x1B 0x200000 0 0 0 0 0)) ∧
    rankOk tabledPort (cmd 0x1B 0x200000 1 0 0 0 0) tabled (.invalSpace 0 (cmd 0x1B 0x200000 1 0 0 0 0)) ∧
    rankOk tabledPort (cmd 0x17 1 0 0 0 0 0) tabled (.rankEnd 0 (cmd 0x17 1 0 0 0 0 0)) ∧
    rankOk (movingPort) (cmd 0x17 1 0 0 0 0 0) { tabled with precopy := some ⟨1024, 0, [], [], [], [], 0, false⟩ }
      (.rankEnd 0 (cmd 0x17 1 0 0 0 0 0)) ∧
    rankOk tabledPort (cmd 0x10 0x5000 4 0 0 0 0) tabled (.evread 0 (cmd 0x10 0x5000 4 0 0 0 0)) ∧
    rankOk tabledPort (cmd 0x14 0x10000 0x0201 0 0 0 0) tabled (.snap 0 (cmd 0x14 0x10000 0x0201 0 0 0 0)) := by
  refine ⟨⟨⟨rfl, rfl, ?_⟩, ⟨?_, ?_⟩, _, _, .communicator rfl ?_ rfl rfl ?_⟩,
    ⟨⟨rfl, rfl, ?_⟩, ⟨?_, ?_⟩, _, _, .endpoint _ rfl rfl rfl rfl rfl rfl ?_ (beside _ _ ?_)⟩,
    ⟨⟨rfl, rfl, ?_⟩, ⟨?_, ?_⟩, _, _, .saveBases rfl rfl rfl rfl rfl rfl⟩, ⟨⟨rfl, rfl, ?_⟩, ⟨?_, ?_⟩, _, _, .migrate ?_ ?_⟩,
    ⟨⟨rfl, rfl, ?_⟩, ⟨?_, ?_⟩, _, _, .invalPage _ ⟨0, 0, 0x200000⟩ rfl (beside _ _ ?_) ?_⟩, ⟨⟨rfl, rfl, ?_⟩, ⟨?_, ?_⟩, _, _, .invalSpace _ ⟨0, 0, 0x200000⟩ rfl (beside _ _ ?_) ?_⟩,
    ⟨⟨rfl, rfl, ?_⟩, ⟨?_, ?_⟩, _, _, .ends rfl rfl ?_ ?_ rfl rfl⟩, ⟨⟨rfl, rfl, ?_⟩, ⟨?_, ?_⟩, _, _, .endsMoving _ rfl rfl ?_ ?_ rfl rfl⟩, ⟨⟨rfl, rfl, ?_⟩, ⟨?_, ?_⟩, _, _, .evread ?_⟩,
    ⟨⟨rfl, rfl, ?_⟩, ⟨?_, ?_⟩, _, _, .snap ?_ ?_ ?_ ?_ ?_⟩⟩ <;> decide +kernel
/-- A bank that a synchronous fault of the C stream stopped, and the port of its package. -/
def stoppedStrand : Strand := { hero with state := .faulted, frame := vset hero.frame 0 0x8002 }

def faultPort (m : Strand) : State := { port with strands := [(2, m)] }

def bankOk (m : Strand) (c : Command) (i : Instr) : Prop :=
  Accepted (faultPort m) 0 c ∧ ForRank (faultPort m) 0 c soloRank ∧ c.w2.toNat < 2 ^ 20 ∧
  (takenFor (faultPort m) 0 c soloRank).onBank c.w2.toNat = some (2, m) ∧
  (∃ t, BankCommand (takenFor (faultPort m) 0 c soloRank) 0 c (woken soloRank) 2 m i t) ∧ m.rank = commandKey c ∧ m.state = .faulted

/-- The same with an AST whose row faulted. -/
def stoppedAst : Strand :=
  { stoppedStrand with
    frame := vset (vset stoppedStrand.frame 0 0x8302) 5 0x9000
    asts := [{ pos := 0, pc := 0x9000, dst := 0x200000, desc := oneRow, row := 0, ovf := 0, iovf := false, freed := 0, rnd := 0
               ieee := false, stopped := true, dmap := hero.dmap }] }

theorem witness_FaultedBanksResume :
    bankOk stoppedStrand (cmd 0x0D 0 3 63 7 0 0) (.bankwGreg 0 (cmd 0x0D 0 3 63 7 0 0)) ∧
    bankOk stoppedStrand (cmd 0x0D 0 3 0x010 1 0 0) (.bankwCsr 0 (cmd 0x0D 0 3 0x010 1 0 0)) ∧
    bankOk stoppedStrand (cmd 0x0D 0 0 0x012 1 0 0) (.bankwCsr 0 (cmd 0x0D 0 0 0x012 1 0 0)) ∧
    bankOk stoppedStrand (cmd 0x0D 0 0 63 0x4000 0 0) (.bankwTile 0 (cmd 0x0D 0 0 63 0x4000 0 0)) ∧
    bankOk stoppedStrand (cmd 0x0E 0 4 0 0 0 0) (.resumeRetry 0 (cmd 0x0E 0 4 0 0 0 0)) ∧
    bankOk stoppedStrand (cmd 0x0E 0 1 0 0 0 0) (.resumeSkip 0 (cmd 0x0E 0 1 0 0 0 0)) ∧
    bankOk stoppedStrand (cmd 0x0E 0 2 0 0 0 0) (.resumeEnd 0 (cmd 0x0E 0 2 0 0 0 0)) := by
  refine ⟨⟨⟨rfl, rfl, ?_⟩, ⟨?_, ?_⟩, ?_, rfl, ⟨_, .greg ?_ ?_⟩, rfl, rfl⟩, ⟨⟨rfl, rfl, ?_⟩, ⟨?_, ?_⟩, ?_, rfl, ⟨_, .csr _ ?_ ?_ ?_ rfl⟩, rfl, rfl⟩,
    ⟨⟨rfl, rfl, ?_⟩, ⟨?_, ?_⟩, ?_, rfl, ⟨_, .rot _ ?_ rfl rfl⟩, rfl, rfl⟩, ⟨⟨rfl, rfl, ?_⟩, ⟨?_, ?_⟩, ?_, rfl, ⟨_, .tile 63 ?_ ?_ ?_ ?_⟩, rfl, rfl⟩,
    ⟨⟨rfl, rfl, ?_⟩, ⟨?_, ?_⟩, ?_, rfl, ⟨_, .retry ?_⟩, rfl, rfl⟩, ⟨⟨rfl, rfl, ?_⟩, ⟨?_, ?_⟩, ?_, rfl, ⟨_, .skip _ _ ?_ ?_ ?_ ?_ ?_ rfl rfl⟩, rfl, rfl⟩,
    ⟨⟨rfl, rfl, ?_⟩, ⟨?_, ?_⟩, ?_, rfl, ⟨_, .ends _ ?_ rfl⟩, rfl, rfl⟩⟩ <;> decide +kernel

theorem witness_SkipsAst :
    ∃ t, BankCommand (takenFor (faultPort stoppedAst) 0 (cmd 0x0E 0 1 0 0 0 0) soloRank) 0
      (cmd 0x0E 0 1 0 0 0 0) (woken soloRank) 2 stoppedAst (.resumeSkip 0 (cmd 0x0E 0 1 0 0 0 0)) t := by
  refine ⟨_, .skipAst _ ?_ ?_ ?_ ?_ ?_ rfl⟩ <;> decide

theorem witness_Retry : (faultPort stoppedStrand).strand 2 = some stoppedStrand := rfl

/-- R250: a bank that is not FAULTED completes with 0xF3, a FAULTED one goes on. -/
theorem test_resume :
    ((next (.resumeRetry 0 (cmd 0x0E 0 4 0 0 0 0)) (faultPort hero)).map fun t => t.rd (hostAddr 0 0x1000) 3) = some 0xF30000 ∧
    ((next (.resumeRetry 0 (cmd 0x0E 0 4 0 0 0 0)) (faultPort stoppedStrand)).map fun t =>
      (t.rd (hostAddr 0 0x1000) 3, (t.strand 2).map (·.state))) = some (0, some .run) := by decide +kernel

def laterOk (c : Command) (i : Instr) : Prop :=
  Accepted port 0 c ∧ ForRank port 0 c soloRank ∧
  ∃ t, LaterCommand (takenFor port 0 c soloRank) 0 c (woken soloRank) port.ids i t

theorem witness_LaterCommands :
    laterOk (cmd 0x0C 0 0 0 0 0 0) (.preemptGang 0 (cmd 0x0C 0 0 0 0 0 0)) ∧
    laterOk (cmd 0x0C 1 0 (-1) 0 0 0) (.preemptPartition 0 (cmd 0x0C 1 0 (-1) 0 0 0)) := by
  refine ⟨⟨⟨rfl, rfl, ?_⟩, ⟨?_, ?_⟩, _, .preemptGang 0 soloNest rfl ?_⟩,
    ⟨⟨rfl, rfl, ?_⟩, ⟨?_, ?_⟩, _, .preemptOut 0 rfl ?_ ?_ ?_⟩⟩ <;> decide +kernel

theorem witness_SluiceLease :
    (let c := cmd 0x0A 0 0x100 0 0 0 0
     Accepted port 0 c ∧ ForAnyHome port 0 c soloRank ∧ c.w2 = 0 ∧
     (takenFor port 0 c soloRank).reach (sluiceDie 0) (dieOfPeer (BitVec.ofNat 12 (fld c.w3 19 8))) 0 = true) ∧
    (let c := cmd 0x0A 1 2 0 0 0 0
     Accepted port 0 c ∧ ForAnyHome port 0 c soloRank ∧ c.w2 = 1 ∧
     (takenFor port 0 c soloRank).legHeld (sluiceDie 0) (sluiceDie 0) (dieOfPeer (BitVec.ofNat 12 c.w3.toNat)) = false ∧
     (takenFor port 0 c soloRank).lendOut 0 (dieOfPeer (BitVec.ofNat 12 c.w3.toNat)) = false ∧
     (takenFor port 0 c soloRank).reclaim (sluiceDie 0) c.w3 =
       (((takenFor port 0 c soloRank).reclaim (sluiceDie 0) c.w3).1, ((takenFor port 0 c soloRank).reclaim (sluiceDie 0) c.w3).2)) := by
  unfold ForAnyHome
  refine ⟨⟨⟨rfl, rfl, ?_⟩, ?_, rfl, ?_⟩, ⟨⟨rfl, rfl, ?_⟩, ?_, rfl, ?_, ?_, rfl⟩⟩ <;> decide +kernel

def awaiting (l : List Pending) : State := pkged { rings with pending := l, cqtail := 15 }

/-- R281: the ring of 16 wraps. -/
theorem witness_Completions :
    Memory.wf (awaiting [⟨4, none, 7⟩]).mem = true ∧ ((awaiting [⟨4, none, 7⟩]).pkg 0).cqReady = true ∧
    ((pkged { rings with pending := [⟨4, none, 7⟩], cqtail := 14 }).pkg 0).cqFull = false ∧
    ((awaiting []).pkg 0).cqFull = true ∧ ((awaiting [⟨3, none, 7⟩, ⟨4, none, 8⟩]).pkg 0).pending = ⟨3, none, 7⟩ :: [⟨4, none, 8⟩] := by
  decide

/-- Packages 0 and 1 have sealed a shard of step 5 as positions 0 and 1 of a group of 2. -/
theorem witness_Parity :
    let h : Nat → Shard := fun m => ⟨0, 0, 0, 0, 5, 1, 2, m, 1⟩
    let s : State := { port with
      pkgs := [(0, { rings with shards := [h 0], routes := [(1, 2 ^ 63 + 2 ^ 16)] }),
        (1, { Package.up with shards := [h 1], routes := [(1, 2 ^ 63)] })]
      links := [(0, 1), (1, 0)] }
    rankOk s (cmd 0x15 5 0 0 0 0 0) soloRank (.parity 0 (cmd 0x15 5 0 0 0 0 0)) := by
  intro h s
  refine ⟨⟨rfl, rfl, ?_⟩, ⟨?_, ?_⟩, _, _, .parity [(0, h 0), (1, h 1)] 2 [0, 1] rfl ?_ ?_ ?_ ?_ ?_ ?_ rfl fun m hm => ?_⟩
  · decide
  · decide +kernel
  · decide +kernel
  · decide
  · decide
  · decide +kernel
  · decide +kernel
  · decide
  · decide +kernel
  · have : m = 0 ∨ m = 1 := by simpa using hm
    rcases this with rfl | rfl <;> decide +kernel

/-! ### A shard whose CRC checks -/

/-- The CRC of one unit from its header and its body. -/
def unitCrc (a b n : Nat) : Nat := crcEnd (crcBytes (crcBytes 0xFFFFFFFF a 60) b n)

theorem shardCrc_fold (u : BitVec 524288) : shardCrc [u] = crcEnd (List.foldl (fun (x : Nat) (v : BitVec 524288) =>
    crcBytes x v.toNat 65536) (crcBytes (crcBytes 0xFFFFFFFF (u.toNat % 2 ^ 480) 60) (u.toNat / 2 ^ 512) 65472) []) := rfl

theorem unitCrc_fold (f : Nat → BitVec 524288 → Nat) (a b n : Nat) :
    crcEnd (List.foldl f (crcBytes (crcBytes 0xFFFFFFFF a 60) b n) []) = unitCrc a b n := rfl

theorem shardCrc_one (u : BitVec 524288) : shardCrc [u] = unitCrc (u.toNat % 2 ^ 480) (u.toNat / 2 ^ 512) 65472 :=
  (shardCrc_fold u).trans (unitCrc_fold (fun (x : Nat) (v : BitVec 524288) => crcBytes x v.toNat 65536) (u.toNat % 2 ^ 480)
    (u.toNat / 2 ^ 512) 65472)

theorem unitCrc_congr (a b c d n : Nat) (h : a = c) (k : b = d) : unitCrc a b n = unitCrc c d n := h ▸ k ▸ rfl

/-- The header's CRC field does not count. -/
theorem shardCrc_skips (h c : Nat) (hh : h < 2 ^ 480) (hc : c < 2 ^ 32) :
    shardCrc [BitVec.ofNat 524288 (h + c * 2 ^ 480)] = shardCrc [BitVec.ofNat 524288 h] := by
  have hp : 2 ^ 512 ≤ 2 ^ 524288 := Nat.pow_le_pow_right (by decide) (by decide)
  have e1 : (BitVec.ofNat 524288 (h + c * 2 ^ 480)).toNat = h + c * 2 ^ 480 := by
    rw [BitVec.toNat_ofNat, Nat.mod_eq_of_lt]; omega
  have e2 : (BitVec.ofNat 524288 h).toNat = h := by
    rw [BitVec.toNat_ofNat, Nat.mod_eq_of_lt]; omega
  have m1 : (BitVec.ofNat 524288 (h + c * 2 ^ 480)).toNat % 2 ^ 480 = (BitVec.ofNat 524288 h).toNat % 2 ^ 480 := by
    rw [e1, e2]; omega
  have d1 : (BitVec.ofNat 524288 (h + c * 2 ^ 480)).toNat / 2 ^ 512 = (BitVec.ofNat 524288 h).toNat / 2 ^ 512 := by
    rw [e1, e2]; omega
  exact (shardCrc_one _).trans ((unitCrc_congr _ _ _ _ _ m1 d1).trans (shardCrc_one _).symm)

/-- A CRC has 32 bits. -/
theorem unitCrc_lt (a b n : Nat) : unitCrc a b n < 2 ^ 32 := by
  have end_lt : ∀ c, c < 2 ^ 32 → crcEnd c < 2 ^ 32 := fun c h => Nat.xor_lt_two_pow h (by decide)
  have bit_lt : ∀ c, c < 2 ^ 32 → crcBit c < 2 ^ 32 := fun c h => by
    unfold crcBit
    split
    · exact Nat.xor_lt_two_pow (by omega) (by decide)
    · omega
  have byte_lt : ∀ c b, c < 2 ^ 32 → b < 256 → crcByte c b < 2 ^ 32 := fun c b h hb => by
    have h0 : c ^^^ b < 2 ^ 32 := Nat.xor_lt_two_pow h (by omega)
    simp only [crcByte, List.range, List.range.loop, List.foldl]
    exact bit_lt _ (bit_lt _ (bit_lt _ (bit_lt _ (bit_lt _ (bit_lt _ (bit_lt _ (bit_lt _ h0)))))))
  have bytes_lt : ∀ n c v, c < 2 ^ 32 → crcBytes c v n < 2 ^ 32 := fun n => by
    induction n with
    | zero => exact fun c v h => h
    | succ n ih => exact fun c v h => ih _ _ (byte_lt c _ h (Nat.mod_lt _ (by decide)))
  exact end_lt _ (bytes_lt _ _ _ (bytes_lt _ _ _ (by decide)))

theorem shardCrc_lt (u : BitVec 524288) : shardCrc [u] < 2 ^ 32 :=
  Eq.mpr (congrArg (· < 2 ^ 32) (shardCrc_one u)) (unitCrc_lt _ _ _)

/-- A shard of one unit without pages: layout 2, groups of 2. -/
def oneShard : Shard := ⟨0, 0x10000, 0, 0, 0, 2, 2, 0, 1⟩

/-- Its CRC. -/
def oneCrc : Nat := shardCrc [BitVec.ofNat 524288 oneShard.header]

/-- The bytes of its header that are not zero, and those of a CRC. -/
def headerCells : List Host.Cell := [(lpddrAddr 0 0x1000C, 2), (lpddrAddr 0 0x1000D, 2), (lpddrAddr 0 0x1000F, 1)]

def crcCells (x0 x1 x2 x3 : Byte) : List Host.Cell :=
  [(lpddrAddr 0 0x1003C, x0), (lpddrAddr 0 0x1003D, x1), (lpddrAddr 0 0x1003E, x2), (lpddrAddr 0 0x1003F, x3)]

def shardCells (x0 x1 x2 x3 : Byte) : List Host.Cell := headerCells ++ crcCells x0 x1 x2 x3

/-- The region list: one entry, layout 2, G = 2. -/
def regionList : List Host.Cell := [(hostAddr 0 0x6000, 1), (hostAddr 0 0x6002, 2), (hostAddr 0 0x6003, 2), (hostAddr 0 0x600A, 1)]

def restorable (x0 x1 x2 x3 : Byte) : State :=
  { port with
    mem := still.mem ++ (shardCells x0 x1 x2 x3 ++ regionList)
    dies := [(0, { soloDie with hbmTables := [⟨64, 4096⟩] })]
    pkgs := [(0, { rings with shards := [oneShard] })] }

/-- A read beyond a prefix of the list. -/
theorem read_append (l r : List Host.Cell) (a : Nat) (h : ∀ e ∈ l, e.1 < a) : Memory.read (l ++ r) a = Memory.read r a := by
  induction l with
  | nil => rfl
  | cons e l ih =>
    have he := h e (List.mem_cons_self ..)
    show (if e.1 = a then e.2 else if a < e.1 then Memory.empty else Memory.read (l ++ r) a) = _
    rw [if_neg (by omega), if_neg (by omega), ih fun x hx => h x (List.mem_cons_of_mem _ hx)]

theorem readNat_append (l r : List Host.Cell) (a n : Nat) (h : ∀ e ∈ l, e.1 < a) :
    Memory.readNat (l ++ r) a n = Memory.readNat r a n := by
  induction n generalizing a with
  | zero => rfl
  | succ n ih =>
    simp only [Memory.readNat, read_append l r a h, ih (a + 1) fun e he => by have := h e he; omega]

theorem read_before (l r : List Host.Cell) (a : Nat) (h : ∀ e ∈ r, a < e.1) : Memory.read (l ++ r) a = Memory.read l a := by
  induction l with
  | nil => exact Memory.read_below r a h
  | cons e l ih =>
    show (if e.1 = a then e.2 else if a < e.1 then Memory.empty else Memory.read (l ++ r) a) = _
    rw [ih]; rfl

theorem readNat_before (l r : List Host.Cell) (a n : Nat) (h : ∀ e ∈ r, a + n ≤ e.1) :
    Memory.readNat (l ++ r) a n = Memory.readNat l a n := by
  induction n generalizing a with
  | zero => rfl
  | succ n ih =>
    simp only [Memory.readNat, read_before l r a fun e he => by have := h e he; omega,
      ih (a + 1) fun e he => by have := h e he; omega]

theorem still_low : ∀ e ∈ still.mem, e.1 < oneShard.addr := by decide +kernel

theorem sum7 (f : Host.Cell → Nat) (a b c d e g h : Host.Cell) :
    [a, b, c, d, e, g, h].foldl (fun acc e => acc + f e) 0 = f a + f b + f c + (f d + f e + f g + f h) := by
  simp [List.foldl, Nat.add_assoc]

theorem place_at (x : Byte) (a base k : Nat) (h : a - base = k) : x.toNat * 2 ^ (8 * (a - base)) = x.toNat * 2 ^ (8 * k) := h ▸ rfl

theorem place_high (v j : Nat) : v * 2 ^ (8 * (60 + j)) = v * 2 ^ (8 * j) * 2 ^ 480 := by
  rw [show 8 * (60 + j) = 8 * j + 480 by omega, Nat.pow_add, Nat.mul_assoc]

theorem shardCells_sum (x0 x1 x2 x3 : Byte) (v : Nat)
    (hv : v = x0.toNat * 2 ^ (8 * 0) + x1.toNat * 2 ^ (8 * 1) + x2.toNat * 2 ^ (8 * 2) + x3.toNat * 2 ^ (8 * 3)) :
    (shardCells x0 x1 x2 x3).foldl (fun acc e => acc + e.2.toNat * 2 ^ (8 * (e.1 - oneShard.addr))) 0 =
      oneShard.header + v * 2 ^ 480 := by
  have h0 : oneShard.header = (2 : Byte).toNat * 2 ^ (8 * 12) + (2 : Byte).toNat * 2 ^ (8 * 13) + (1 : Byte).toNat * 2 ^ (8 * 15) := by
    decide
  have hv' : v * 2 ^ 480 = x0.toNat * 2 ^ (8 * (60 + 0)) + x1.toNat * 2 ^ (8 * (60 + 1)) + x2.toNat * 2 ^ (8 * (60 + 2)) +
      x3.toNat * 2 ^ (8 * (60 + 3)) := by
    rw [place_high, place_high, place_high, place_high, hv, Nat.add_mul, Nat.add_mul, Nat.add_mul]
  have hs := sum7 (fun e => e.2.toNat * 2 ^ (8 * (e.1 - oneShard.addr))) (lpddrAddr 0 0x1000C, 2) (lpddrAddr 0 0x1000D, 2)
    (lpddrAddr 0 0x1000F, 1) (lpddrAddr 0 0x1003C, x0) (lpddrAddr 0 0x1003D, x1) (lpddrAddr 0 0x1003E, x2) (lpddrAddr 0 0x1003F, x3)
  refine hs.trans ?_
  rw [h0, hv']
  exact congr (congrArg HAdd.hAdd (congr (congrArg HAdd.hAdd (congr (congrArg HAdd.hAdd
    (place_at 2 _ _ 12 (by decide))) (place_at 2 _ _ 13 (by decide)))) (place_at 1 _ _ 15 (by decide))))
    (congr (congrArg HAdd.hAdd (congr (congrArg HAdd.hAdd (congr (congrArg HAdd.hAdd
    (place_at x0 _ _ (60 + 0) (show lpddrAddr 0 0x1003C - oneShard.addr = 60 + 0 by decide))) (place_at x1 _ _ (60 + 1) (show lpddrAddr 0 0x1003D - oneShard.addr = 60 + 1 by decide)))) (place_at x2 _ _ (60 + 2) (show lpddrAddr 0 0x1003E - oneShard.addr = 60 + 2 by decide))))
    (place_at x3 _ _ (60 + 3) (show lpddrAddr 0 0x1003F - oneShard.addr = 60 + 3 by decide)))

theorem shardCells_only (x0 x1 x2 x3 : Byte) :
    (restorable x0 x1 x2 x3).mem.filter (fun e => oneShard.addr ≤ e.1 && e.1 < oneShard.addr + 65536) = shardCells x0 x1 x2 x3 := by
  have h1 : still.mem.filter (fun e => oneShard.addr ≤ e.1 && e.1 < oneShard.addr + 65536) = [] := by decide +kernel
  have h2 : regionList.filter (fun e => oneShard.addr ≤ e.1 && e.1 < oneShard.addr + 65536) = [] := by decide +kernel
  have h3 : (shardCells x0 x1 x2 x3).filter (fun e => oneShard.addr ≤ e.1 && e.1 < oneShard.addr + 65536) =
      shardCells x0 x1 x2 x3 := by
    simp [shardCells, headerCells, crcCells, lpddrAddr, oneShard, Shard.addr]
  simp only [restorable, List.filter_append, h1, h2, h3, List.nil_append, List.append_nil]

theorem unit_of (s : State) (a : Nat) (l : List Host.Cell) (h : s.mem.filter (fun e => a ≤ e.1 && e.1 < a + 65536) = l) :
    s.unit a = BitVec.ofNat 524288 (l.foldl (fun acc e => acc + e.2.toNat * 2 ^ (8 * (e.1 - a))) 0) := by
  subst h; rfl

theorem restorable_image (x0 x1 x2 x3 : Byte)
    (h : oneCrc = x0.toNat * 2 ^ (8 * 0) + x1.toNat * 2 ^ (8 * 1) + x2.toNat * 2 ^ (8 * 2) + x3.toNat * 2 ^ (8 * 3)) :
    (restorable x0 x1 x2 x3).unit oneShard.addr = BitVec.ofNat 524288 (oneShard.header + oneCrc * 2 ^ 480) :=
  (unit_of _ _ _ (shardCells_only x0 x1 x2 x3)).trans (congrArg (BitVec.ofNat 524288) (shardCells_sum x0 x1 x2 x3 oneCrc h))

theorem units_one (s : State) (a : Nat) : s.units a 1 = [s.unit a] := by simp [State.units]

theorem present_of (s : State) (job : BitVec 32) (layout : Nat) (h : Shard) (h1 : h.job = job) (h2 : h.layout = layout)
    (h3 : 1 ≤ h.units) (h4 : h.base + 65536 * h.units ≤ tierBytes true) (h5 : s.rd h.addr 60 = h.header)
    (h6 : s.rd (h.addr + 60) 4 = shardCrc (s.units h.addr h.units)) : s.presentAt job layout h = true := by
  simp only [State.presentAt, Bool.and_eq_true, decide_eq_true_eq, beq_iff_eq]
  exact ⟨⟨⟨⟨⟨h1, h2⟩, h3⟩, h4⟩, h5⟩, h6⟩

theorem restorable_crc (x0 x1 x2 x3 : Byte)
    (h : oneCrc = x0.toNat * 2 ^ (8 * 0) + x1.toNat * 2 ^ (8 * 1) + x2.toNat * 2 ^ (8 * 2) + x3.toNat * 2 ^ (8 * 3)) :
    (restorable x0 x1 x2 x3).rd (oneShard.addr + 60) 4 = oneCrc := by
  have e : (restorable x0 x1 x2 x3).rd (oneShard.addr + 60) 4 =
      Memory.readNat (still.mem ++ (headerCells ++ (crcCells x0 x1 x2 x3 ++ regionList))) (oneShard.addr + 60) 4 :=
    congrArg (fun l => Memory.readNat (still.mem ++ l) (oneShard.addr + 60) 4) (List.append_assoc ..)
  rw [e, readNat_append _ _ _ _ fun e he => by have := still_low e he; omega, readNat_append _ _ _ _ (by decide), h]
  simp [Memory.readNat, Memory.read, crcCells, lpddrAddr, oneShard, Shard.addr]
  omega

theorem restorable_header (x0 x1 x2 x3 : Byte) : (restorable x0 x1 x2 x3).rd oneShard.addr 60 = oneShard.header := by
  have e : (restorable x0 x1 x2 x3).rd oneShard.addr 60 =
      Memory.readNat (still.mem ++ (headerCells ++ (crcCells x0 x1 x2 x3 ++ regionList))) oneShard.addr 60 :=
    congrArg (fun l => Memory.readNat (still.mem ++ l) oneShard.addr 60) (List.append_assoc ..)
  have k : ∀ e ∈ crcCells x0 x1 x2 x3 ++ regionList, oneShard.addr + 60 ≤ e.1 := by
    simp [crcCells, regionList, lpddrAddr, hostAddr, oneShard, Shard.addr]
  rw [e, readNat_append _ _ _ _ still_low, readNat_before _ _ _ _ k]
  decide +kernel

theorem restorable_shard (x0 x1 x2 x3 : Byte)
    (h : oneCrc = x0.toNat * 2 ^ (8 * 0) + x1.toNat * 2 ^ (8 * 1) + x2.toNat * 2 ^ (8 * 2) + x3.toNat * 2 ^ (8 * 3)) :
    (restorable x0 x1 x2 x3).presentAt 0 2 oneShard = true := by
  have lt : oneCrc < 2 ^ 32 := shardCrc_lt _
  have hu := restorable_image x0 x1 x2 x3 h
  have hc : shardCrc [(restorable x0 x1 x2 x3).unit oneShard.addr] = oneCrc :=
    (congrArg (fun x => shardCrc [x]) hu).trans (shardCrc_skips _ _ (by decide) lt)
  have he : (restorable x0 x1 x2 x3).units oneShard.addr oneShard.units = [(restorable x0 x1 x2 x3).unit oneShard.addr] :=
    units_one _ _
  exact present_of _ _ _ _ rfl rfl (by decide) (by decide) (restorable_header x0 x1 x2 x3)
    ((restorable_crc x0 x1 x2 x3 h).trans (hc.symm.trans (congrArg shardCrc he.symm)))

theorem readNat_add (m : List Host.Cell) (a n k : Nat) :
    Memory.readNat m a (n + k) = Memory.readNat m a n + 2 ^ (8 * n) * Memory.readNat m (a + n) k := by
  induction n generalizing a with
  | zero => simp [Memory.readNat]
  | succ n ih =>
    have h : Memory.readNat m a (n + 1 + k) = (Memory.read m a).toNat + 256 * Memory.readNat m (a + 1) (n + k) := by
      rw [show n + 1 + k = n + k + 1 by omega]; rfl
    have h1 : Memory.readNat m a (n + 1) = (Memory.read m a).toNat + 256 * Memory.readNat m (a + 1) n := rfl
    rw [h, ih, h1, show a + 1 + n = a + (n + 1) by omega, show 8 * (n + 1) = 8 + 8 * n by omega, Nat.pow_add, Nat.mul_add,
      ← Nat.mul_assoc, show (2 : Nat) ^ 8 = 256 from rfl]
    omega

/-- A field below the CRC of a header does not see it. -/
theorem low_field (v c lo w : Nat) (h : lo + w ≤ 480) : (v + 2 ^ 480 * c) / 2 ^ lo % 2 ^ w = v / 2 ^ lo % 2 ^ w := by
  obtain ⟨k, hk⟩ := Nat.exists_eq_add_of_le h
  have e : 2 ^ 480 * c = 2 ^ lo * (2 ^ w * (2 ^ k * c)) := by
    rw [hk, Nat.pow_add, Nat.pow_add, Nat.mul_assoc, Nat.mul_assoc]
  rw [e, Nat.add_mul_div_left _ _ (Nat.two_pow_pos lo), Nat.add_mul_mod_self_left]

theorem header_of (s : State) (c : Nat) (h : s.rd oneShard.addr 64 = oneShard.header + 2 ^ 480 * c) :
    s.headerAt 0 65536 = oneShard := by
  have a : lpddrAddr (BitVec.toNat (0 : DieKey)) 65536 = oneShard.addr := by decide
  unfold State.headerAt
  simp only [a, h]
  rw [low_field _ _ _ _ (by decide), low_field _ _ _ _ (by decide), low_field _ _ _ _ (by decide), low_field _ _ _ _ (by decide),
    low_field _ _ _ _ (by decide), low_field _ _ _ _ (by decide), low_field _ _ _ _ (by decide)]
  decide +kernel

theorem region_of (s : State) (l : List Host.Cell) (job : BitVec 32) (layout lo hi base : Nat) (h : Shard)
    (e1 : lpddrAddr (regionDie 0x10000).toNat (regionOff 0x10000) = lo)
    (e2 : base + tierBytes true = hi) (e3 : lpddrAddr (regionDie 0x10000).toNat 0 = base)
    (hf : s.mem.filter (fun e => lo ≤ e.1 && e.1 < hi) = l) (hl : l.map (fun e => (e.1 - base) / 65536) = List.replicate 7 1)
    (hh : s.headerAt (regionDie 0x10000) 65536 = h) (hp : s.presentAt job layout h = true) :
    s.regionShards job layout 0x10000 = [h] := by
  have d : (List.replicate 7 1 : List Nat).eraseDups = [1] := by decide
  unfold State.regionShards
  simp only [e1, e3, e2, hf, hl, d, List.map_cons, List.map_nil, Nat.mul_one, hh, List.filter_cons, hp, if_true, List.filter_nil]

theorem restorable_region (x0 x1 x2 x3 : Byte)
    (h : oneCrc = x0.toNat * 2 ^ (8 * 0) + x1.toNat * 2 ^ (8 * 1) + x2.toNat * 2 ^ (8 * 2) + x3.toNat * 2 ^ (8 * 3)) :
    (restorable x0 x1 x2 x3).regionShards 0 2 0x10000 = [oneShard] := by
  refine region_of _ (shardCells x0 x1 x2 x3) 0 2 (lpddrAddr 0 0x10000) (lpddrAddr 0 0 + tierBytes true) (lpddrAddr 0 0) oneShard
    (by decide) (by decide) (by decide) ?_ ?_ ?_ (restorable_shard x0 x1 x2 x3 h)
  · have h1 : still.mem.filter (fun e => lpddrAddr 0 0x10000 ≤ e.1 && e.1 < (lpddrAddr 0 0 + tierBytes true)) = [] := by decide +kernel
    have h2 : regionList.filter (fun e => lpddrAddr 0 0x10000 ≤ e.1 && e.1 < (lpddrAddr 0 0 + tierBytes true)) = [] := by decide +kernel
    have h3 : (shardCells x0 x1 x2 x3).filter (fun e => lpddrAddr 0 0x10000 ≤ e.1 && e.1 < (lpddrAddr 0 0 + tierBytes true)) =
        shardCells x0 x1 x2 x3 := by
      simp [shardCells, headerCells, crcCells, lpddrAddr, tierBytes, Config.lpddrFrames]
    simp only [restorable, List.filter_append, h1, h2, h3, List.nil_append, List.append_nil]
  · simp [shardCells, headerCells, crcCells, lpddrAddr, List.replicate]
  · refine header_of _ oneCrc ?_
    exact (readNat_add _ _ 60 4).trans (congr (congrArg HAdd.hAdd (restorable_header x0 x1 x2 x3))
      (congrArg (2 ^ 480 * ·) (restorable_crc x0 x1 x2 x3 h)))

theorem bytes_of (c : Nat) (h : c < 2 ^ 32) : c = (BitVec.ofNat 8 c).toNat * 2 ^ (8 * 0) +
    (BitVec.ofNat 8 (c / 256)).toNat * 2 ^ (8 * 1) + (BitVec.ofNat 8 (c / 65536)).toNat * 2 ^ (8 * 2) +
    (BitVec.ofNat 8 (c / 16777216)).toNat * 2 ^ (8 * 3) := by
  simp only [BitVec.toNat_ofNat]; omega

theorem restores (s : State) (key : Nat) (r : Rank) (shard : List (BitVec 524288)) (hq : r.precopy = none)
    (h : (s.newSpace r.home r.job r.vrank.toNat).isSome = true) (hp : shardPages shard = []) :
    ∃ t, s.restoreAll [(key, r, shard)] = some t := by
  obtain ⟨⟨s1, root⟩, h1⟩ := Option.isSome_iff_exists.mp h
  have h2 : s.restoreRank key r shard =
      some (((s1.setRank key (r.readWords (shardState shard))).startSweep key).relatch key) := by
    unfold State.restoreRank
    rw [hq]
    simp only [h1]
    rw [hp]
    rfl
  exact ⟨_, by unfold State.restoreAll; rw [h2]; rfl⟩

/-- The command that restores from the list at 0x6000, and the state in which it is carried out. -/
def restoring : Command := cmd 0x16 0x6000 0 0 0 0 0

def restorer (x0 x1 x2 x3 : Byte) : State := takenFor (restorable x0 x1 x2 x3) 0 restoring soloRank

theorem takenFor_mem (s : State) (p : Pkg) (c : Command) (r : Rank) : (takenFor s p c r).mem = s.mem := rfl

theorem unit_mem (s t : State) (a : Nat) (h : s.mem = t.mem) : s.unit a = t.unit a := by
  unfold State.unit; rw [h]

theorem region_mem (s t : State) (job : BitVec 32) (layout : Nat) (e : Word) (h : s.mem = t.mem) :
    s.regionShards job layout e = t.regionShards job layout e := by
  unfold State.regionShards State.headerAt State.presentAt State.units State.unit State.rd
  rw [h]

theorem hostWord_mem (s : State) (m : List Host.Cell) (a : Word) (i : Nat) (h : s.mem = m) :
    s.hostWord 0 a i = wd (Memory.readNat m (hostAddr 0 (a.toNat + 8 * i)) 8) := by
  subst h; rfl

theorem shardsOf_one (s : State) (k : Shard) (hk : k.step = 0) :
    s.shardsOf [⟨0, [k]⟩] 2 2 0 0 = [(k.vrank.toNat, s.units k.addr k.units)] := by
  simp [State.shardsOf, hk]

theorem chooses (t : State) (named : List Named) (lay g n : Nat) (job : BitVec 32) (step : BitVec 48)
    (l : List (Nat × List (BitVec 524288))) (ranks : List (Nat × Rank)) (x : List (Nat × Rank × List (BitVec 524288)))
    (h1 : t.stepsOf named job = [step]) (h2 : t.shardsOf named lay g job step = l) (h3 : pickShards l ranks = some x)
    (h4 : shardsWhole l n = true) :
    (t.stepsOf named job).findSome? (fun step => if shardsWhole (t.shardsOf named lay g job step) n then
      (pickShards (t.shardsOf named lay g job step) ranks).map fun x => (step, x) else none) = some (step, x) := by
  rw [h1]; simp [h2, h3, h4]

theorem region_word (x0 x1 x2 x3 : Byte) (i : Nat) : (restorer x0 x1 x2 x3).hostWord 0 0x6000 i =
    wd (Memory.readNat regionList (hostAddr 0 (0x6000 + 8 * i)) 8) := by
  have e : (restorer x0 x1 x2 x3).hostWord 0 0x6000 i =
      wd (Memory.readNat (still.mem ++ (shardCells x0 x1 x2 x3 ++ regionList)) (hostAddr 0 (0x6000 + 8 * i)) 8) :=
    hostWord_mem _ _ _ _ ((takenFor_mem _ _ _ _).trans (by simp only [restorable]))
  have k1 : ∀ e ∈ still.mem, e.1 < hostAddr 0 (0x6000 + 8 * i) := fun e he =>
    Nat.lt_of_lt_of_le (Nat.lt_trans (still_low e he) (show oneShard.addr < hostAddr 0 0x6000 by decide))
      (by simp only [hostAddr]; omega)
  have k2 : ∀ e ∈ shardCells x0 x1 x2 x3, e.1 < hostAddr 0 (0x6000 + 8 * i) := fun e he => by
    simp [shardCells, headerCells, crcCells, lpddrAddr] at he
    rcases he with rfl | rfl | rfl | rfl | rfl | rfl | rfl <;> simp only [hostAddr] <;> omega
  rw [e, readNat_append _ _ _ _ k1, readNat_append _ _ _ _ k2]

theorem one_page (u : BitVec 524288) (h : u.toNat < 2 ^ 512) : shardPages [u] = [] := by
  have e : bodyWord [u] 0 = 0 := BitVec.eq_of_toNat_eq (by
    show (u.extractLsb' (64 * 8) 64).toNat = 0
    rw [BitVec.extractLsb'_toNat, Nat.shiftRight_eq_div_pow, Nat.div_eq_of_lt h])
  unfold shardPages
  rw [e]
  rfl

theorem witness_Restore : ∃ s, rankOk s restoring soloRank (.restore 0 restoring) := by
  have lt : oneCrc < 2 ^ 32 := shardCrc_lt _
  obtain ⟨x0, x1, x2, x3, hx⟩ : ∃ x0 x1 x2 x3 : Byte, oneCrc = x0.toNat * 2 ^ (8 * 0) + x1.toNat * 2 ^ (8 * 1) +
    x2.toNat * 2 ^ (8 * 2) + x3.toNat * 2 ^ (8 * 3) := ⟨_, _, _, _, bytes_of oneCrc lt⟩
  have hp : (restorer x0 x1 x2 x3).regionShards 0 2 0x10000 = [oneShard] :=
    (region_mem _ _ _ _ _ (takenFor_mem _ _ _ _)).trans (restorable_region x0 x1 x2 x3 hx)
  have hu := restorable_image x0 x1 x2 x3 hx
  have w0 : (restorer x0 x1 x2 x3).hostWord 0 0x6000 0 = 0x2020001 := (region_word x0 x1 x2 x3 0).trans (by decide)
  have w1 : (restorer x0 x1 x2 x3).hostWord 0 0x6000 1 = 0x10000 := (region_word x0 x1 x2 x3 1).trans (by decide)
  have hs : (restorer x0 x1 x2 x3).stepsOf [⟨0, [oneShard]⟩] 0 = [0] := by
    show ((([0] : List (BitVec 48)).mergeSort fun a b => b ≤ a).eraseDups) = [0]
    simp [List.eraseDups, List.eraseDupsBy, List.eraseDupsBy.loop]
  have hd : (restorer x0 x1 x2 x3).shardsOf [⟨0, [oneShard]⟩] 2 2 0 0 = [(0, [(restorer x0 x1 x2 x3).unit oneShard.addr])] :=
    (shardsOf_one _ _ rfl).trans (congrArg (fun x => [(0, x)]) (units_one _ _))
  have hn : ((restorer x0 x1 x2 x3).unit oneShard.addr).toNat < 2 ^ 512 := by
    have e : (restorer x0 x1 x2 x3).unit oneShard.addr = (restorable x0 x1 x2 x3).unit oneShard.addr :=
      unit_mem _ _ _ (takenFor_mem _ _ _ _)
    rw [e, hu, BitVec.toNat_ofNat]
    refine Nat.lt_of_le_of_lt (Nat.mod_le _ _) ?_
    have : oneShard.header < 2 ^ 480 := by decide
    omega
  obtain ⟨t, ht⟩ := restores (restorer x0 x1 x2 x3) 0 (woken soloRank) [(restorer x0 x1 x2 x3).unit oneShard.addr] rfl rfl
    (one_page _ hn)
  have f1 : fld (0x2020001 : Word) 23 16 = 2 := by decide +kernel
  have f2 : fld (0x2020001 : Word) 31 24 = 2 := by decide +kernel
  have hd2 : (restorer x0 x1 x2 x3).shardsOf [⟨0, [oneShard]⟩] (fld (0x2020001 : Word) 23 16) (fld (0x2020001 : Word) 31 24) 0 0 =
      [(0, [(restorer x0 x1 x2 x3).unit oneShard.addr])] := by
    rw [f1, f2]
    exact hd
  have hk : (taken (restorable x0 x1 x2 x3) 0 restoring).rank? (commandKey restoring) = some soloRank := by
    rw [show commandKey restoring = 0 by decide +kernel]
    rfl
  have hr : [(⟨0, [oneShard]⟩ : Named)] = [(0x10000 : Word)].map fun w => ⟨pkgOf (regionDie w),
      (restorer x0 x1 x2 x3).regionShards 0 (fld (0x2020001 : Word) 23 16) w⟩ := by
    rw [f1]
    exact congrArg (fun l => [(⟨0, l⟩ : Named)]) hp.symm
  refine ⟨restorable x0 x1 x2 x3, ⟨rfl, rfl, by decide +kernel⟩, ⟨hk, rfl⟩, _, t,
    .restore _ [0x10000] [⟨0, [oneShard]⟩] 0 [(0, woken soloRank, [(restorer x0 x1 x2 x3).unit oneShard.addr])] _ ?_ rfl w0.symm ?_ ?_ ?_
      ?_ ?_ ?_ ht⟩
  · rfl
  · exact congrArg (fun x => [x]) w1.symm
  · decide
  · decide
  · rfl
  · exact hr
  · exact chooses _ _ _ _ _ _ _ _ _ _ hs hd2 rfl rfl

/-! ### Waits that end, stores, engines, losses -/

/-- A strand whose stream waits at a word. -/
def standing (m : Strand) (t : Stream) (w : Wait) (i : Instr) : Strand :=
  { m with walk := [⟨0, 0, (encode i).headD 0, 0, false⟩] }.setWait t w

/-- R149, R376: the waits of ARWAIT, LDF and WAITF end with the effect of their words. -/
theorem witness_PadWaitsEnd :
    let a := standing low .x .arwait (.arwait .x 6 false false)
    let b := standing low .c .fe (.ldfK 5 6 2 3)
    let d := standing low .c .fe (.waitfC 6 7)
    ((place a).waiting 0 .x .arwait = some (2, a, .arwait .x 6 false false) ∧
      ∃ t, PadWord (place a) 2 a client (.arwait .x 6 false false) t ∧ next (.arwaitDone 0 .x) (place a) = some t) ∧
    (({ place b with fe := [0] } : State).waiting 0 .c .fe = some (2, b, .ldfK 5 6 2 3) ∧
      ∃ t, PadWord { place b with fe := [0] } 2 b client (.ldfK 5 6 2 3) t ∧
        next (.fullEmptyWaitDone 0 .c) { place b with fe := [0] } = some t) ∧
    (({ place d with fe := natRange 0 8 } : State).waiting 0 .c .fe = some (2, d, .waitfC 6 7) ∧
      ∃ t, PadWord { place d with fe := natRange 0 8 } 2 d client (.waitfC 6 7) t ∧
        next (.fullEmptyWaitDone 0 .c) { place d with fe := natRange 0 8 } = some t) := by
  refine ⟨⟨?_, _, .arwait .x 6 false false _ ?_ rfl ?_, ?_⟩, ⟨?_, _, .ldfK 5 6 2 3 (lsAddr 0 0 12) 0 ?_ ?_ ?_ ?_ ?_, ?_⟩,
    ⟨?_, _, .waitfC 6 7 _ rfl ?_, ?_⟩⟩ <;> decide +kernel

/-- R438: TLDK and TSTK go on once their granules are full, or empty. -/
theorem witness_TileWaitsEnd :
    let a := standing loads .l .fe (.tldk 1 6 0)
    let b := standing loads .s .fe (.tstk 1 6 0)
    (({ place a with fe := natRange 0 4 } : State).waiting 0 .l .fe = some (2, a, .tldk 1 6 0) ∧
      ∃ t, TileWord { place a with fe := natRange 0 4 } 2 a client (.tldk 1 6 0) t ∧
        next (.fullEmptyWaitDone 0 .l) { place a with fe := natRange 0 4 } = some t) ∧
    ((place b).waiting 0 .s .fe = some (2, b, .tstk 1 6 0) ∧
      ∃ t, TileWord (place b) 2 b client (.tstk 1 6 0) t ∧ next (.fullEmptyWaitDone 0 .s) (place b) = some t) := by
  refine ⟨⟨?_, _, .tldk 1 6 0 _ _ _ _ rfl ?_ ?_ rfl rfl ?_, ?_⟩, ⟨?_, _, .tstk 1 6 0 _ _ _ _ rfl ?_ ?_ rfl rfl ?_, ?_⟩⟩ <;>
    decide +kernel

theorem placed_ok (m : Strand) (h : Memory.wf (place hero).mem = true) : MemOk (place m) := h

theorem witness_TileStores :
    MemOk (place loads) ∧ ReadyAs (place loads) 2 loads client ∧
    (∃ l, TileStore (place loads) loads client (.tst 1 8 (-1)) l ∧ l ≠ [] ∧ (next (.tst 1 8 (-1)) (place loads)).isSome = true) ∧
    (∃ l, TileStore (place loads) loads client (.tstk 1 6 0) l ∧ l ≠ [] ∧ (next (.tstk 1 6 0) (place loads)).isSome = true) ∧
    (∃ l, TileStore (place loads) loads client (.tmov true 6 8 false) l ∧ l ≠ []) := by
  refine ⟨placed_ok _ ?_, ⟨ready _ ?_, ?_⟩, ⟨_, .tst 1 8 (-1), ?_, ?_⟩, ⟨_, .tstk 1 6 0, ?_, ?_⟩, ⟨_, .tmov true 6 8 false, ?_⟩⟩ <;>
    decide +kernel

theorem witness_WalkStores :
    (∃ l, WalkStore (place gathers) 2 gathers client (.gather 10 11 12 false 0) l ∧ l ≠ []) ∧
    (∃ l, WalkStore (place scatters) 2 scatters client (.scat 10 11 12 false 0) l ∧ l ≠ []) ∧
    (∃ l, WalkStore (place scatters) 2 scatters client (.scata 10 11 12 false 0 0) l ∧ l ≠ []) ∧
    (∃ l, WalkStore (place scatters) 2 scatters client (.upd 10 11 12 false 0 0) l ∧ l ≠ []) ∧
    WalkStore demo 2 hero client (.scat 1 2 3 false 0) [] := by
  refine ⟨⟨_, .gather 10 11 12 false 0, ?_⟩, ⟨_, .scat 10 11 12 false 0 ⟨1, 1, cfg 1 4 0⟩ _ rfl rfl, ?_⟩,
    ⟨_, .scata 10 11 12 false 0 0 ⟨1, 1, cfg 1 4 0⟩ _ rfl rfl, ?_⟩, ⟨_, .upd 10 11 12 false 0 0 ⟨1, 1, cfg 1 4 0⟩ _ rfl rfl, ?_⟩,
    .noTile _ 1 2 3 (.inl ⟨false, 0, rfl⟩) ?_⟩ <;> decide +kernel

/-- A drain, a running AST and a chunk, each about to store. -/
theorem witness_EngineStores :
    let a : Ast := ⟨0, 0, 0x200000, oneRow, 0, 0, false, 0, 0, false, false, hero.dmap⟩
    let m : Strand := { math with asts := [a] }
    (MemOk (bench math) ∧ (next (.adrain 6 7) (bench math)).isSome = true ∧ math.progAt math.x.pos = none) ∧
    (MemOk (bench m) ∧ (bench m).onBank (BitVec.toNat (0 : Loc)) = some (2, m) ∧ (bench m).clientOf m = some client ∧
      m.asts.find? (fun a => !a.stopped) = some a ∧ (next (.astFinish 0) (bench m)).isSome = true) ∧
    (MemOk (place (copying flying)) ∧ (place (copying flying)).runningCmd 0 0 = some (2, copying flying, client, flying) ∧
      flying.chunks ≠ 0 ∧ ((place (copying flying)).chunk client flying (flying.next + (0 : BitVec 4).toNat)).2 matches .ok _ ∧
      (next (.chunkArrive 0 0 0) (place (copying flying))).isSome = true) := by
  unfold MemOk
  decide +kernel

/-- PGMIG of the page at 0x50000 to frame 9 of its own die. -/
def migrates : Strand := standing (regs [(6, 0x50000), (7, 0)]) .c .page (.pgmig 5 6 7)

def migrating : State :=
  { place migrates with
    mem := paged64 demo.mem 0x5000001
    dies := [(0, { soloDie with held := [⟨0, 0, 0x50000, 0, .procedure 2 0 true 0x50000⟩], hbmPool := [⟨9, 1⟩] })] }

theorem witness_PageMigrates :
    let h : Held := ⟨0, 0, 0x50000, 0, .procedure 2 0 true 0x50000⟩
    MemOk migrating ∧ migrating.onBank (BitVec.toNat (0 : Loc)) = some (2, migrates) ∧ migrates.noted = [] ∧
    migrates.c.wait = .page ∧ (migrates.wordAt migrates.c.pos).bind (fun w => decode w.bits) = some (.pgmig 5 6 7) ∧
    migrating.clientOf migrates = some client ∧ PageForm migrates (.pgmig 5 6 7) 5 6 (migrates.reg 7) true ∧
    migrating.heldBy 2 client (migrates.reg 6) = some (0, h, 0) ∧ migrating.translatedOut h.job h.key = false ∧
    migrating.uncopiedIn 0 h.job h.key h.off 1 = none ∧ (migrating.pageEnd (.pgmig 5 6 7) 0 h 0).1 = 0 ∧
    ((next (.pageProcedureDone 0) migrating).map fun t => (t.physWord 0 false 0x40028, (t.strand 2).map (·.reg 5))) =
      some (0x9000001, some 0) := by
  refine ⟨?_, ?_, ?_, ?_, ?_, ?_, .mig 5 6 7 ?_, ?_, ?_, ?_, ?_, ?_⟩ <;> (try unfold MemOk) <;> decide +kernel

/-- PGSPLIT of the 2 MiB page at 0 with a lower table to take, and PGCOLL of a READ_DUP page whose replica set is die 0. -/
def splits : Strand := standing (regs [(6, 0x50000)]) .c .page (.pgsplit 5 6)
def collapses : Strand := standing (regs [(6, 0x50000), (7, 0)]) .c .page (.pgcoll 5 6 7)

def splitting : State :=
  { place splits with
    mem := Memory.writeNat (Memory.writeNat demo.mem (hbmAddr 0 0x20008) 8 0x30001) (hbmAddr 0 0x30000) 8 0x20000003
    dies := [(0, { soloDie with held := [⟨0, 0, 0, 1, .procedure 2 0 false 0x50000⟩], hbmTables := [⟨0x500, 1⟩] })] }

def collapsing : State :=
  { place collapses with
    mem := paged64 demo.mem (0x5000041 + 2 ^ 56)
    dies := [(0, { soloDie with held := [⟨0, 0, 0x50000, 0, .procedure 2 0 true 0x50000⟩], rsets := [(1, [0])] })] }

theorem witness_PageSplits :
    let h : Held := ⟨0, 0, 0, 1, .procedure 2 0 false 0x50000⟩
    let l : LeafAt := ⟨0x20000003, 1, false, 0x30000⟩
    MemOk splitting ∧ splitting.onBank (BitVec.toNat (0 : Loc)) = some (2, splits) ∧ splits.noted = [] ∧ splits.c.wait = .page ∧
    (splits.wordAt splits.c.pos).bind (fun w => decode w.bits) = some (.pgsplit 5 6) ∧ splitting.clientOf splits = some client ∧
    PageForm splits (.pgsplit 5 6) 5 6 0 false ∧ splitting.heldBy 2 client (splits.reg 6) = some (0, h, 0) ∧
    splitting.translatedOut h.job h.key = false ∧ splitting.uncopiedIn 0 h.job h.key h.off 32 = none ∧
    splitting.walk 0 h.job h.key h.ga = some l ∧ splitting.replicas 0 l.leaf = [] ∧
    splitting.sameLeaves h.job h.key h.ga l [0] = some [(0, l)] ∧ (splitting.pageEnd (.pgsplit 5 6) 0 h 0).1 = 0 ∧
    ((splitting.pageEnd (.pgsplit 5 6) 0 h 0).2.physWord 0 false 0x50028) = 0x25000001 := by
  refine ⟨?_, ?_, ?_, ?_, ?_, ?_, .split 5 6, ?_, ?_, ?_, ?_, ?_, ?_, ?_, ?_⟩ <;> (try unfold MemOk) <;> decide +kernel

theorem witness_PageCollapses :
    let h : Held := ⟨0, 0, 0x50000, 0, .procedure 2 0 true 0x50000⟩
    let l : LeafAt := ⟨0x5000041 + 2 ^ 56, 0, false, 0x40028⟩
    MemOk collapsing ∧ collapsing.onBank (BitVec.toNat (0 : Loc)) = some (2, collapses) ∧ collapses.noted = [] ∧
    collapses.c.wait = .page ∧ (collapses.wordAt collapses.c.pos).bind (fun w => decode w.bits) = some (.pgcoll 5 6 7) ∧
    collapsing.clientOf collapses = some client ∧ PageForm collapses (.pgcoll 5 6 7) 5 6 (collapses.reg 7) true ∧
    collapsing.heldBy 2 client (collapses.reg 6) = some (0, h, 0) ∧ collapsing.translatedOut h.job h.key = false ∧
    collapsing.uncopiedIn 0 h.job h.key h.off 1 = none ∧ collapsing.walk 0 h.job h.key h.ga = some l ∧
    collapsing.replicas 0 l.leaf = [0] ∧ collapsing.sameLeaves h.job h.key h.ga l [0] = some [(0, l)] ∧
    (collapsing.pageEnd (.pgcoll 5 6 7) 0 h 0).1 = 0 ∧
    ((collapsing.pageEnd (.pgcoll 5 6 7) 0 h 0).2.physWord 0 false 0x40028) = 0x5000001 := by
  refine ⟨?_, ?_, ?_, ?_, ?_, ?_, .coll 5 6 7 ?_, ?_, ?_, ?_, ?_, ?_, ?_, ?_, ?_⟩ <;> (try unfold MemOk) <;> decide +kernel

/-- Gang 1, whose strand is still, goes out before gang 8. -/
theorem witness_SwitchOut :
    let r : Rank := { soloRank with nimg := 1, jobs := [⟨[1, 8], .flip⟩] }
    let s : State := { demo with ranks := [(0, r)], mem := paged64 demo.mem 0x5000041 }
    s.rank? 0 = some r ∧ (s.gang? 1).map (fun g => (g.resident, g.image)) = some (true, none) ∧ s.halted 1 = true ∧
    s.freeImage 0 r = some 0 ∧ (s.endMoves 1 soloGang).toOption.isSome = true ∧ (s.switchGang 1 soloGang 0).toOption.isSome = true ∧
    (s.strand 2).map (fun m => (m.gang, m.place.isSome)) = some (1, true) := by
  decide +kernel

/-- R160: a gang that goes out ends the restore that it has begun; the claim of another stands. -/
theorem test_moves_end :
    let s : State := { demo with lsSeg := [(0, ⟨0, 1, 0, 0, .restoring⟩), (1, ⟨0, 8, 1, 0, .saving 0 9 2 0⟩)] }
    (s.endMoves 1 soloGang).toOption.map (fun x => x.lsSeg.map fun e => e.2.state) = some [.active, .saving 0 9 2 0] ∧
    moveSpots 1 soloGang s = [(segAddr false 0, 65536)] := by decide +kernel

/-- The states of the engines' rows have canonical memory. -/
theorem witness_EngineRowsOnCanonicalMemory :
    MemOk moving ∧ MemOk emigrating ∧ MemOk demoting ∧ MemOk (place stepping) ∧ MemOk (restorer 1 1 1 1) ∧
    MemOk { demo with ranks := [(0, { soloRank with nimg := 1, jobs := [⟨[1, 8], .flip⟩] })], mem := paged64 demo.mem 0x5000041 } := by
  unfold MemOk
  decide +kernel

theorem witness_RestoreAll : ∃ t, (restorer 1 1 1 1).restoreAll [(0, woken soloRank, [0])] = some t :=
  restores _ _ _ _ rfl rfl (one_page 0 (by simp <;> exact Nat.two_pow_pos 512))

/-- A lease with a die of package 5, and a pre-copy to it. -/
theorem witness_Losses :
    let q : Polder := { lease 2 true with lender := peerOf 5 }
    let s : State := { still with
      ranks := [(0, { soloRank with precopy := some ⟨5, 0, [], [], [], [], 0, false⟩ })]
      dies := [(0, { soloDie with polders := [(3, q), (4, lease 2 false)] })] }
    (pkgOf (dieOfPeer q.lender) = pkgOf 5 ∧ pkgOf 5 ≠ 0 ∧ q.live? = true ∧ tabGet (s.die 0).polders 3 = some q) ∧
    ((next (.packageLost 0 (pkgOf 5)) s).map fun t =>
      ((tabGet (t.die 0).polders 3).map (·.state), (tabGet (t.die 0).polders 4).map (·.state), (t.rank? 0).map fun r => r.precopy.isNone)) =
      some (some 5, some 2, some true) := by
  decide +kernel

theorem witness_WarmStopWaits :
    (still.pkg 0).state = .started ∧ still.ranksIn 0 = [(0, soloRank)] ∧ still.rank? 0 = some soloRank ∧ soloRank.jobs = [] ∧
    (still.gangs.any fun g => g.2.rank = 0 && g.2.resident) = true ∧
    ((pkged { Package.up with stopping := true }).pkg (pkgOf soloRank.home)).stopping = true ∧
    tabGet soloRank.clusters 0 = some 0 := by decide +kernel

/-- A relocatable GRED whose operands lie outside LS, at the head of its stream. -/
def moves : Strand :=
  { regs [(10, 0x300000), (11, 0x200000), (12, 0x400000)] with
    walk := [⟨0, 0, (encode (.gred 10 11 12 true 0 false false)).headD 0, 0, false⟩] }

theorem witness_GredMoves : ∃ l, GredMoves (place moves) 0 48 7 2 moves l := by
  refine ⟨[0x300000, 0x200000, 0x400000], ?_⟩
  unfold GredMoves
  decide +kernel

/-- GRED of one empty bag to private memory. -/
theorem witness_GredDevice :
    let m := walker 0x400000 0x100001001 0 0x300000
    ∃ t, WalkWordRuns (place m) 2 m client (.gred 10 11 12 false 0 false false) t ∧
      next (.gred 10 11 12 false 0 false false) (place m) = some t := by
  refine ⟨_, .gredDevice 10 11 12 false 0 false false 4 _ _ _ _ ?_ ?_ ?_ ?_ ?_ ?_ ?_ ?_ ?_ ?_ rfl ?_ ?_ rfl, ?_⟩ <;> decide +kernel

/-- A request to a package whose route entry has changed while an earlier one is unanswered. -/
theorem witness_RouteHeld :
    let q : Msg := ⟨9, 0, 1, 0, 0, false, 0, false, 0, 9, 1, .access (asks none 0)⟩
    let k : Msg := { q with id := 5, req := 5 }
    let s : State := { carried q 0 with
      msgs := [k, q], pkgs := [(0, { Package.up with routes := [(1, 2 ^ 63)], routeHold := [(1, [7])] })] }
    s.msg? s.subject = some q ∧ q.arrived = false ∧ s.alive q.at_ = true ∧ s.routeHeld q = true ∧
    ({ s with msgs := [q] } : State).routeHeld q = false ∧ q.hops ≠ lostHops := by decide +kernel

theorem witness_OwnRules :
    (∃ v, OwnRule (.div 5 6 7) ∧ IntResult (seedOf demo hero) hero.reg (.div 5 6 7) 5 v) ∧
    (∃ v, OwnRule (.rngRs 5 6 7) ∧ IntResult (seedOf demo hero) hero.reg (.rngRs 5 6 7) 5 v) ∧
    ¬ OwnRule (.add 5 6 7) ∧ Ready demo 2 hero := by
  refine ⟨⟨_, .div 5 6 7, .div 5 6 7⟩, ⟨_, .rngRs 5 6 7, .rngRs 5 6 7⟩, ?_, ready _ rfl⟩
  intro h
  cases h

end Sys2Proof.Tests
end

section
/-! PROOFS. A stream's word, the scalar words on device memory, and what the scalar words on memory leave as it was. -/

namespace Sys2Proof

open Sys2Proof.Machine

theorem SameTables.refl (m : Strand) : SameTables m m := by
  simp [SameTables]

theorem SameTables.trans {m n k : Strand} (h : SameTables m n) (h2 : SameTables n k) : SameTables m k := by
  unfold SameTables at *
  simp [h, h2]

end Sys2Proof

namespace Sys2Proof.Machine

/-! ### What translating and sending a request changes -/

/-- The second state differs from the first at most in what a request changes on its way to its bytes: sweeps, snapshots and
pre-copies of ranks, the tables of dies, messages and the numbers given out. -/
def Underway (s t : State) : Prop :=
  ∃ ranks dies msgs ids nfree, t = { s with ranks := ranks, dies := dies, msgs := msgs, ids := ids, nfree := nfree }

namespace Underway

theorem refl (s : State) : Underway s s := ⟨_, _, _, _, _, rfl⟩

theorem trans {s t v : State} (h : Underway s t) (k : Underway t v) : Underway s v := by
  obtain ⟨_, _, _, _, _, rfl⟩ := h
  obtain ⟨_, _, _, _, _, rfl⟩ := k
  exact ⟨_, _, _, _, _, rfl⟩

theorem memOk {s t : State} (h : Underway s t) (hm : MemOk s) : MemOk t := by
  obtain ⟨_, _, _, _, _, rfl⟩ := h
  exact hm

theorem strand {s t : State} (h : Underway s t) (u : Nat) : t.strand u = s.strand u := by
  obtain ⟨_, _, _, _, _, rfl⟩ := h
  rfl

theorem setDie (s : State) (d : DieKey) (v : Die) : Underway s (s.setDie d v) := ⟨_, _, _, _, _, rfl⟩

theorem updDie (s : State) (d : DieKey) (f : Die → Die) : Underway s (s.updDie d f) := setDie s d _

theorem updRank (s : State) (r : Nat) (f : Rank → Rank) : Underway s (s.updRank r f) := by
  unfold State.updRank
  split
  · exact refl s
  · exact ⟨_, _, _, _, _, rfl⟩

theorem markDirty (s : State) (job : BitVec 32) (key off : Nat) : Underway s (s.markDirty job key off) := ⟨_, _, _, _, _, rfl⟩

theorem sendOn (s : State) (src dst : DieKey) (route : Nat) (fwd : Bool) (body : Body) :
    Underway s (s.sendOn src dst route fwd body) := ⟨_, _, _, _, _, rfl⟩

theorem postError (s : State) (src dst : DieKey) (uid : Nat) (va : Word) (die : DieKey) (cause : BitVec 8) :
    Underway s (s.postError src dst uid va die cause) := sendOn ..

theorem countMigrate (s : State) (d : DieKey) (job : BitVec 32) (key off : Nat) (home : DieKey) (leaf : Word) :
    Underway s (s.countMigrate d job key off home leaf) := by
  unfold State.countMigrate
  dsimp only
  split
  · exact refl s
  · split
    · exact setDie ..
    · split
      · exact setDie ..
      · exact (setDie ..).trans (updDie ..)

theorem translate (s : State) (d : DieKey) (job : BitVec 32) (key off : Nat) : Underway s (s.translate d job key off).1 := by
  unfold State.translate
  dsimp only
  split
  · split
    · exact refl s
    · split <;> exact ⟨_, _, _, _, _, rfl⟩
  · split
    · exact refl s
    · dsimp only
      exact updDie ..

theorem useLeaf (s : State) (p : Spot) (job : BitVec 32) (home own : DieKey) (write : Bool) (leaf : Word) (size : Nat) :
    Underway s (s.useLeaf p job home own write leaf size).1 := by
  have counted : Underway s (if write then (s.countMigrate p.die job p.key p.off home leaf).markDirty job p.key p.off
      else s.countMigrate p.die job p.key p.off home leaf) := by
    split
    · exact (countMigrate ..).trans (markDirty ..)
    · exact countMigrate ..
  unfold State.useLeaf
  split
  · exact refl s
  · split
    · exact refl s
    · split
      · exact updRank ..
      · dsimp only
        generalize (if write = true then _ else _ : State) = s3 at counted ⊢
        split
        · exact counted
        · split
          · exact counted
          · split <;> exact counted

theorem locateLeaf (s : State) (p : Spot) (job : BitVec 32) (home own : DieKey) (write : Bool) :
    Underway s (s.locateLeaf p job home own write).1 := by
  have ht := translate s p.die job p.key p.off
  unfold State.locateLeaf
  split
  · exact updRank ..
  · split
    · next e => rwa [e] at ht
    · next e =>
      rw [e] at ht
      exact ht.trans (useLeaf ..)

theorem endpointEntry (s : State) (c : Client) (v : Nat) : Underway s (s.endpointEntry c v).1 := by
  have hl : Underway s (s.locate ⟨c.home, c.vrank.toNat, (c.endp.toNat + 8 * v) % 2 ^ 52⟩ c.job c.home c.home false).1 :=
    locateLeaf ..
  unfold State.endpointEntry
  split
  · next e =>
    rw [e] at hl
    split <;> exact hl
  · next e => rwa [e] at hl
  · next e => rwa [e] at hl

theorem resolve (s : State) (c : Client) (va : Word) : Underway s (s.resolve c va).1 := by
  have he := endpointEntry s c (fld va 51 0 / 2 ^ 36)
  unfold State.resolve
  dsimp only
  split
  · exact refl s
  · split
    · exact refl s
    · split
      · split <;> exact refl s
      · split
        · exact refl s
        · split <;> (next e => rwa [e] at he)

end Underway

/-! ### What a strand keeps -/

theorem Strand.retire_keeps (m : Strand) (t : Stream) : SameTables m (m.retire t) ∧ (m.retire t).g = m.g := by
  obtain ⟨h, hg⟩ := m.retire_same t
  unfold SameBeside at h
  exact ⟨by simp [SameTables, h], hg⟩

theorem Strand.setWait_keeps (m : Strand) (t : Stream) (w : Wait) : SameTables m (m.setWait t w) ∧ (m.setWait t w).g = m.g := by
  cases t <;> simp [SameTables, Strand.setWait, Strand.setStream]

theorem Strand.setReg_tables (m : Strand) (d : Field) (v : Word) : SameTables m (m.setReg d v) := by
  simp [SameTables]

theorem Strand.stopped_keeps (m : Strand) (n : Noted) (acc : Word) :
    SameTables m (m.stopped n acc) ∧ (m.stopped n acc).g = m.g := by
  unfold Strand.stopped
  cases n.retires
  · exact ⟨by simp [SameTables], rfl⟩
  · exact m.retire_keeps .c

/-! ### Notifications and faults -/

/-- A byte outside a store reads as before. -/
theorem State.read_wr_outside {s : State} {a n v x : Nat} (h : MemOk s) (hx : ¬ (a ≤ x ∧ x < a + n)) :
    Memory.read (s.wr a n v).mem x = Memory.read s.mem x :=
  Memory.read_writeNat_other s.mem a n v x h (by omega)

/-- Stated for any number of bytes: with a numeral for `n` the elaborator would unfold the store byte by byte. -/
theorem State.wr_setPkg_eq (s : State) (a n v : Nat) (p : Pkg) (k : Package) :
    (s.wr a n v).setPkg p k = { s with mem := (s.wr a n v).mem, pkgs := tabPut s.pkgs p.toNat k } := rfl

/-- A notification changes memory and packages alone, and of memory only the bytes of its place in the ring (R281). -/
theorem State.notify_eq (s : State) (p : Pkg) (v : BitVec 128) (h : MemOk s) :
    ∃ mem pkgs, s.notify p v = { s with mem := mem, pkgs := pkgs } ∧
      ∀ x, ¬ Notified s x → Memory.read mem x = Memory.read s.mem x := by
  have outside (w : Nat) (x : Nat) (hx : ¬ Notified s x) := State.read_wr_outside (v := w) h (fun hin => hx ⟨p, hin⟩)
  unfold State.notify
  dsimp only
  split
  · exact ⟨_, _, rfl, fun _ _ => rfl⟩
  · exact ⟨_, _, State.wr_setPkg_eq .., outside v.toNat⟩

/-- An event changes its rank's queue, and what the notification of it changes (R252, R289). -/
theorem State.event_eq (s : State) (r : Nat) (w : BitVec 128) (h : MemOk s) :
    ∃ mem pkgs ranks, s.event r w = { s with mem := mem, pkgs := pkgs, ranks := ranks } ∧
      ∀ x, ¬ Notified s x → Memory.read mem x = Memory.read s.mem x := by
  unfold State.event
  split
  · exact ⟨_, _, _, rfl, fun _ _ => rfl⟩
  · next v _ =>
    dsimp only
    split
    · exact ⟨_, _, _, rfl, fun _ _ => rfl⟩
    · split
      · obtain ⟨mem, pkgs, e, hmem⟩ := State.notify_eq
          (s.setRank r { v with evq := v.evq ++ [⟨w, v.evSeq, v.gstep⟩], evSeq := v.evSeq + 1 }) (pkgOf v.home) (evqNote v) h
        exact ⟨mem, pkgs, _, e, hmem⟩
      · exact ⟨_, _, _, rfl, fun _ _ => rfl⟩

/-! ### What a scalar word on memory leaves as it was -/

/-- The registers stay, but for the destination of a word that has one. -/
def RegsKept : Option Field → Strand → Strand → Prop
  | none, m, k => k.g = m.g
  | some d, m, k => ∀ j, j ≠ d → k.reg j = m.reg j

theorem RegsKept.of_g {dst : Option Field} {m k : Strand} (h : k.g = m.g) : RegsKept dst m k := by
  cases dst
  · exact h
  · intro j _
    simp [Strand.reg, h]

/-- From `s` to `t` no byte changes but those of `bytes` and of a notification; strand `u`, which was `m`, keeps its tables and its
registers but for `dst`; the other strands, full-empty bits, tiles, banks and codebooks stay. -/
structure WordFrame (s : State) (u : Nat) (m : Strand) (bytes : Nat → Prop) (dst : Option Field) (t : State) : Prop where
  mem : ∀ x, ¬ bytes x → ¬ Notified s x → Memory.read t.mem x = Memory.read s.mem x
  fe : t.fe = s.fe
  tiles : t.tiles = s.tiles
  accs : t.accs = s.accs
  accOwner : t.accOwner = s.accOwner
  books : t.books = s.books
  own : ∃ k, t.strand u = some k ∧ SameTables m k ∧ RegsKept dst m k
  others : ∀ v, v ≠ u → t.strand v = s.strand v

namespace WordFrame

variable {s : State} {u : Nat} {m : Strand} {bytes : Nat → Prop} {dst : Option Field}

/-- A step that only changes the strand, within its frame. -/
theorem setStrand {k : Strand} (ht : SameTables m k) (hr : RegsKept dst m k) : WordFrame s u m bytes dst (s.setStrand u k) :=
  ⟨fun _ _ _ => rfl, rfl, rfl, rfl, rfl, rfl, ⟨k, State.strand_setStrand .., ht, hr⟩,
    fun v hv => State.strand_setStrand_ne s u v k hv⟩

theorem upd (hs : s.strand u = some m) {f : Strand → Strand} (ht : SameTables m (f m)) (hr : RegsKept dst m (f m)) :
    WordFrame s u m bytes dst (s.upd u f) := by
  rw [State.upd_eq s u m f hs]
  exact setStrand ht hr

theorem waitFor (hs : s.strand u = some m) (t : Stream) (w : Wait) : WordFrame s u m bytes dst (s.waitFor u t w) :=
  upd hs (m.setWait_keeps t w).1 (.of_g (m.setWait_keeps t w).2)

theorem done (hs : s.strand u = some m) (t : Stream) : WordFrame s u m bytes dst (s.done u t) :=
  upd hs (m.retire_keeps t).1 (.of_g (m.retire_keeps t).2)

theorem same (hs : s.strand u = some m) : WordFrame s u m bytes dst s :=
  ⟨fun _ _ _ => rfl, rfl, rfl, rfl, rfl, rfl, ⟨m, hs, .refl m, .of_g rfl⟩, fun _ _ => rfl⟩

/-- What a request changes on its way is outside the frame. -/
theorem of_underway {s1 t : State} (h : Underway s s1) (hf : WordFrame s1 u m bytes dst t) : WordFrame s u m bytes dst t := by
  obtain ⟨_, _, _, _, _, rfl⟩ := h
  exact ⟨hf.mem, hf.fe, hf.tiles, hf.accs, hf.accOwner, hf.books, hf.own, hf.others⟩

/-- A store to bytes of the frame. -/
theorem of_wr {t : State} {a n v : Nat} (h : MemOk s) (hb : ∀ x, a ≤ x → x < a + n → bytes x)
    (hf : WordFrame (s.wr a n v) u m bytes dst t) : WordFrame s u m bytes dst t := by
  refine ⟨fun x hx hn => ?_, hf.fe, hf.tiles, hf.accs, hf.accOwner, hf.books, hf.own, hf.others⟩
  exact (hf.mem x hx hn).trans (State.read_wr_outside h fun ⟨hlo, hhi⟩ => hx (hb x hlo hhi))

/-- A synchronous fault: noted, and taken unless words are in flight (R236). -/
theorem raise (h : MemOk s) (hs : s.strand u = some m) (t : Stream) (cause : BitVec 8) (addr prog : Word) :
    WordFrame s u m bytes dst (s.raise u t cause addr prog) := by
  unfold State.raise
  simp only [hs]
  generalize hm : ({ m with noted := _ } : Strand) = m1
  have hm1 : SameTables m m1 ∧ m1.g = m.g := by
    subst hm
    simp [SameTables]
  obtain ⟨htab, hg⟩ := hm1
  rcases State.takeFault_cases (s.setStrand u m1) u with e | ⟨k, n, loc, ord, hk, -, -, -, -, -, e⟩ <;> rw [e]
  · exact setStrand htab (.of_g hg)
  · obtain rfl : m1 = k := by simpa using hk
    obtain ⟨htab2, hg2⟩ := m1.stopped_keeps n ((s.setStrand u m1).ownedMask u false)
    generalize m1.stopped n _ = k at htab2 hg2 ⊢
    obtain ⟨mem, pkgs, ranks, e2, hmem⟩ := State.event_eq (((s.setStrand u m1).setStrand u k).dropArray u) m1.rank
      (evPayload 0x01 (n.cause.toNat * 256 + loc * 65536) ord) h
    rw [e2]
    refine ⟨fun x _ hn => hmem x hn, rfl, rfl, rfl, rfl, rfl,
      ⟨k, State.strand_setStrand (s.setStrand u m1) u k, htab.trans htab2, .of_g (hg2.trans hg)⟩, fun v hv => ?_⟩
    calc ((s.setStrand u m1).setStrand u k).strand v
      _ = (s.setStrand u m1).strand v := State.strand_setStrand_ne _ _ _ _ hv
      _ = s.strand v := State.strand_setStrand_ne _ _ _ _ hv

end WordFrame

/-! ### The access of a word, performed or sent -/

/-- An access is performed at its bytes, and its word retires with what it returns. -/
def State.performed (s : State) (u : Nat) (a : Access) (addr : Nat) : State :=
  (s.performAt a addr).2.upd u fun k => k.complete a (s.performAt a addr).1

/-- The register that an access writes. -/
def Access.dest (a : Access) : Option Field :=
  match a.op with
  | .store => none
  | .releaseStore => none
  | _ => some a.dst

/-- A byte among `n` at the place where the strand's own die stores for an address. -/
def StoredAt (s : State) (c : Client) (va : Word) (n x : Nat) : Prop :=
  ∃ addr, storesAt s c va = some addr ∧ addr ≤ x ∧ x < addr + n

/-- A byte that an access of the strand stores, if it is a write whose bytes the strand's own die holds. -/
def StoreBytes (s : State) (c : Client) (a : Access) (x : Nat) : Prop := a.op.writes = true ∧ StoredAt s c a.va a.bytes x

theorem Strand.complete_keeps (m : Strand) (a : Access) (v : Word) :
    SameTables m (m.complete a v) ∧ RegsKept a.dest m (m.complete a v) := by
  have stored := m.retire_keeps a.stream
  have written : SameTables m ((m.setReg a.dst v).retire a.stream) ∧
      RegsKept (some a.dst) m ((m.setReg a.dst v).retire a.stream) := by
    obtain ⟨ht, hg⟩ := (m.setReg a.dst v).retire_keeps a.stream
    refine ⟨(m.setReg_tables a.dst v).trans ht, fun j hj => ?_⟩
    rw [Strand.reg, hg]
    exact Strand.reg_setReg_ne m a.dst j v hj
  unfold Strand.complete Access.dest
  cases a.op with
  | store => exact stored
  | releaseStore => exact stored
  | load _ => exact written
  | acquireLoad => exact written
  | amo _ _ => exact written
  | cas => exact written

/-- Performing an access changes nothing but its bytes, and those only for a write. -/
theorem State.performAt_cases (s : State) (a : Access) (addr : Nat) :
    (s.performAt a addr).2 = s ∨ a.op.writes = true ∧ ∃ v, (s.performAt a addr).2 = s.wr addr a.bytes v := by
  unfold State.performAt AccessOp.writes
  cases a.op with
  | load _ => exact .inl rfl
  | acquireLoad => exact .inl rfl
  | store => exact .inr ⟨rfl, _, rfl⟩
  | releaseStore => exact .inr ⟨rfl, _, rfl⟩
  | amo _ _ => exact .inr ⟨rfl, _, rfl⟩
  | cas =>
    dsimp only
    split
    · exact .inr ⟨rfl, _, rfl⟩
    · exact .inl rfl

/-- What an access to device memory can come to: it waits for a page or faults, a failure is posted, its request leaves for another die,
or the strand's own die performs it, a write at the address that it gives (R174, R242). -/
inductive AccessEnds (s : State) (u : Nat) (c : Client) (a : Access) : State → Prop where
  | stalls {s1} : Underway s s1 → AccessEnds s u c a s1
  | faults {s1} : Underway s s1 → (e : BitVec 8) → AccessEnds s u c a (s1.raise u a.stream e a.va 0)
  | posts {s1} : Underway s s1 → (d : DieKey) → (e : BitVec 8) →
      AccessEnds s u c a ((s1.postError c.die c.die u a.va d e).done u a.stream)
  | departs {s1} : Underway s s1 → (d : DieKey) → (q : Access) → (route : Nat) → (fwd : Bool) → (body : Body) →
      AccessEnds s u c a (s1.depart u c.die d q route fwd body)
  | performs {s1} : Underway s s1 → (addr : Nat) → (a.op.writes = true → storesAt s c a.va = some addr) →
      AccessEnds s u c a (s1.performed u a addr)

theorem storesAt_pad {s : State} {c : Client} {va : Word} {addr : Nat} (hd : fld va 56 52 = 31) (h : s.scratch c va = .ok addr) :
    storesAt s c va = some addr := by
  simp [storesAt, hd, h]

theorem storesAt_device {s s1 s2 : State} {c : Client} {va : Word} {p : Spot} {t : Target} {far : Bool}
    (hd : fld va 56 52 ≠ 31) (hres : s.resolve c va = (s1, .ok p)) (hp : p.die = c.die)
    (hat : s1.servedAt c.die p.die c.job p.key p.off = some c.die)
    (hloc : s1.locateLeaf p c.job c.home c.die true = (s2, .ok t, far)) (hown : ownBytes c t = true) :
    storesAt s c va = some (s2.confine c.job c.die t.addr) := by
  obtain ⟨die, key, off⟩ := p
  subst hp
  simp [storesAt, hd, hres, hat, hloc, hown]

theorem State.deviceAccess_ends (s : State) (u : Nat) (c : Client) (a : Access) (hd : fld a.va 56 52 ≠ 31) :
    AccessEnds s u c a (s.deviceAccess u c a) := by
  have hres := Underway.resolve s c a.va
  unfold State.deviceAccess
  split
  · next e => rw [e] at hres; exact .faults hres _
  · next e => rw [e] at hres; exact .stalls hres
  · next s1 p e =>
    rw [e] at hres
    dsimp only
    split
    · split
      · exact .posts hres ..
      · exact .faults hres _
    · split
      · exact .departs hres ..
      · next hp =>
        split
        · exact .faults hres _
        · next d hat =>
          split
          · exact .departs hres ..
          · next hown =>
            have hloc := hres.trans (.locateLeaf s1 p c.job c.home c.die a.op.writes)
            split
            · next el => rw [el] at hloc; exact .stalls hloc
            · next el =>
              rw [el] at hloc
              split
              · exact .posts hloc ..
              · exact .faults hloc _
            · next s2 t _ el =>
              rw [el] at hloc
              split
              · next hb =>
                refine .performs hloc (if a.op.writes then s2.confine c.job c.die t.addr else t.addr) fun hw => ?_
                rw [hw] at el
                rw [if_pos hw]
                obtain rfl : d = c.die := Decidable.not_not.mp hown
                exact storesAt_device hd e (Decidable.not_not.mp hp) hat el hb
              · exact .departs hloc ..

namespace WordFrame

variable {s : State} {u : Nat} {m : Strand} {bytes : Nat → Prop} {dst : Option Field}

theorem performed (h : MemOk s) (hs : s.strand u = some m) (a : Access) (addr : Nat)
    (hb : a.op.writes = true → ∀ x, addr ≤ x → x < addr + a.bytes → bytes x) :
    WordFrame s u m bytes a.dest (s.performed u a addr) := by
  unfold State.performed
  obtain ⟨ht, hr⟩ := m.complete_keeps a (s.performAt a addr).1
  rcases s.performAt_cases a addr with e | ⟨hw, v, e⟩ <;> rw [e]
  · exact upd hs ht hr
  · exact of_wr h (hb hw) (upd (s := s.wr addr a.bytes v) hs ht hr)

theorem depart (hs : s.strand u = some m) (own d : DieKey) (a : Access) (route : Nat) (fwd : Bool) (body : Body) :
    WordFrame s u m bytes dst (s.depart u own d a route fwd body) := by
  refine of_underway (.sendOn s own d route fwd body) ?_
  replace hs : (s.sendOn own d route fwd body).strand u = some m := hs
  unfold State.depart
  dsimp only
  split
  · exact waitFor hs ..
  · exact done hs ..

/-- A scratchpad access stores at the address that the window gives (R138, R139). -/
theorem onScratch {c : Client} (h : MemOk s) (hs : s.strand u = some m) (hc : s.clientOf m = some c) (a : Access) :
    WordFrame s u m (StoreBytes s c a) a.dest (onScratch s u m a) := by
  unfold Machine.onScratch
  simp only [hc]
  split
  · exact raise h hs ..
  · split
    · exact raise h hs ..
    · split
      · exact raise h hs ..
      · next hd =>
        split
        · exact raise h hs ..
        · exact waitFor hs ..
        · next addr haddr =>
          exact performed h hs a addr fun hw x hlo hhi => ⟨hw, addr, storesAt_pad (Decidable.not_not.mp hd) haddr, hlo, hhi⟩

/-- An access to device memory stores at the address that the strand's own die gives, if it holds the bytes (R174). -/
theorem of_ends {c : Client} (h : MemOk s) (hs : s.strand u = some m) {a : Access} {t : State} (ht : AccessEnds s u c a t) :
    WordFrame s u m (StoreBytes s c a) a.dest t := by
  have here {s1 : State} (hu : Underway s s1) : s1.strand u = some m := (hu.strand u).trans hs
  cases ht with
  | stalls hu => exact of_underway hu (same (here hu))
  | faults hu e => exact of_underway hu (raise (hu.memOk h) (here hu) ..)
  | posts hu d e =>
    have sent := hu.trans (.postError _ c.die c.die u a.va d e)
    exact of_underway sent (done (here sent) a.stream)
  | departs hu d q route fwd body => exact of_underway hu (depart (here hu) ..)
  | performs hu addr hst =>
    exact of_underway hu (performed (hu.memOk h) (here hu) a addr fun hw x hlo hhi => ⟨hw, addr, hst hw, hlo, hhi⟩)

theorem onDevice {c : Client} (h : MemOk s) (hs : s.strand u = some m) (hc : s.clientOf m = some c) (a : Access) (n : Nat) :
    WordFrame s u m (StoreBytes s c a) a.dest (onDevice s u m a n) := by
  unfold Machine.onDevice
  simp only [hc]
  split
  · exact raise h hs ..
  · split
    · exact raise h hs ..
    · split
      · exact raise h hs ..
      · next hd =>
        split
        · exact same hs
        · exact of_ends h hs (s.deviceAccess_ends u c a hd)

theorem mono {t : State} {more : Nat → Prop} (hf : WordFrame s u m bytes dst t) (hb : ∀ x, bytes x → more x) :
    WordFrame s u m more dst t :=
  { hf with mem := fun x hx hn => hf.mem x (fun h => hx (hb x h)) hn }

/-- LDF leaves every byte, and of the full-empty bits at most its granule's is emptied (R388). -/
theorem ldf (h : MemOk s) (hs : s.strand u = some m) (d a : Field) (sz : BitVec 2) (o : BitVec 10) (clear : Bool) :
    ∃ fe, WordFrame { s with fe := fe } u m bytes (some d) (s.ldf u m d a sz o clear) := by
  have faults (e : BitVec 8) (va : Word) : ∃ fe, WordFrame { s with fe := fe } u m bytes (some d) (s.raise u .c e va 0) :=
    ⟨s.fe, raise h hs ..⟩
  have waits (w : Wait) : ∃ fe, WordFrame { s with fe := fe } u m bytes (some d) (s.waitFor u .c w) :=
    ⟨s.fe, waitFor hs ..⟩
  have loads (fe : List Nat) (v : Word) : WordFrame { s with fe := fe } u m bytes (some d)
      (({ s with fe := fe } : State).upd u fun k => (k.setReg d v).retire .c) := by
    obtain ⟨ht, hr⟩ := m.complete_keeps (mkAccess u m .c .acquireLoad 0 0 0 0 d) v
    exact upd (s := { s with fe := fe }) hs ht hr
  unfold State.ldf
  dsimp only
  split
  · exact faults ..
  · split
    · exact faults ..
    · split
      · exact faults ..
      · split
        · exact ⟨s.fe, same hs⟩
        · split
          · exact faults ..
          · exact waits _
          · split
            · exact faults ..
            · split
              · exact waits _
              · next g _ _ =>
                cases clear
                · exact ⟨_, loads s.fe _⟩
                · exact ⟨_, loads (s.setEmpty g).fe _⟩

end WordFrame
end Sys2Proof.Machine

namespace Sys2Proof

open Sys2Proof.Machine

/-! ### The word that a stream meets -/

/-- Four bytes read little-endian (R13). -/
theorem rd_four (s : State) (a : Nat) :
    s.rd a 4 = (Memory.read s.mem a).toNat + 2 ^ 8 * (Memory.read s.mem (a + 1)).toNat +
      2 ^ 16 * (Memory.read s.mem (a + 2)).toNat + 2 ^ 24 * (Memory.read s.mem (a + 3)).toNat := by
  simp only [State.rd, Memory.readNat, Nat.add_assoc, Nat.reduceAdd]
  omega

theorem rd_four_lt (s : State) (a : Nat) : s.rd a 4 < 2 ^ 32 := by
  have byte := fun k => (Memory.read s.mem (a + k)).isLt
  have h0 := byte 0
  have h1 := byte 1
  have h2 := byte 2
  have h3 := byte 3
  rw [rd_four]
  simp only [Nat.add_zero] at h0
  omega

theorem fetch_recorded (s : State) (u : Nat) (m : Strand) (t : Stream) (w : WalkWord)
    (h : m.wordAt (m.stream t).pos = some w) : s.fetch u m t = (s, .ok w) := by
  simp [State.fetch, h]

/-- Settles O2: a recorded word is met as it is, and any other is read through the one access of the fetch. -/
theorem fetchReadsFourBytes : Obligations.FetchReadsFourBytes := by
  refine ⟨fetch_recorded, ?_⟩
  intro s s1 u m m1 t c a hw hd hc ha hu
  refine ⟨⟨(m.stream t).pos, (m.stream t).pc, BitVec.ofNat 32 (s1.rd a.addr 4), m.rrb, false⟩, rfl, rfl, rfl, rfl, ?_, ?_⟩
  · rw [← rd_four, BitVec.toNat_ofNat, Nat.mod_eq_of_lt (rd_four_lt s1 a.addr)]
  · simp [State.fetch, State.readVa, hw, hd, hc, ha, State.upd_eq s1 u m1 _ hu]

/-! ### The words on device memory -/

theorem scalarEa_eq (m : Strand) (a : Field) (sz : BitVec 2) (o : BitVec 10) : scalarEa m a sz o = effective m a sz o := by
  have hpow : BitVec.twoPow 64 sz.toNat = BitVec.ofInt 64 (2 ^ sz.toNat) := by
    rw [show (2 : Int) ^ sz.toNat = ((2 ^ sz.toNat : Nat) : Int) by simp, BitVec.ofInt_natCast]
    exact BitVec.eq_of_toNat_eq (by simp)
  unfold scalarEa effective
  rw [BitVec.shiftLeft_eq_mul_twoPow, hpow, BitVec.ofInt_mul, BitVec.signExtend]

/-- The access that a word of the C stream makes for what it asks. -/
def Asked.access (q : Asked) (u : Nat) (m : Strand) : Access := mkAccess u m .c q.op q.va q.bytes q.data q.other q.dst

/-- A word on device memory comes to its own entry: an atomic whose address lies in the scratchpad window acts there, a releasing
store waits for the earlier words, and every other word acts on device memory. -/
theorem exec_accessForm {s : State} {u : Nat} {m : Strand} {i : Instr} {q : Asked} {n : Nat} (hf : AccessForm m i q n)
    (h : Ready s u m) :
    exec i s = .next (onDevice s u m (q.access u m) n) ∨
    (q.op = .releaseStore ∧ s.quiet u m .c = false ∧ exec i s = .next s) ∨
    (n = q.bytes ∧ fld q.va 56 52 = 31 ∧ exec i s = .next (onScratch s u m (q.access u m))) := by
  have run := fun body => onWord_ready s .c false false body u m h nofun nofun
  have atomic (a : Access) : onAtomic s u m a = onDevice s u m a a.bytes ∨
      fld a.va 56 52 = 31 ∧ onAtomic s u m a = onScratch s u m a := by
    unfold onAtomic
    split <;> simp_all
  cases hf with
  | ldg d a sz o => exact .inl (by rw [exec_ldg, execLdg, run, scalarEa_eq]; rfl)
  | stg d a sz o => exact .inl (by rw [exec_stg, execStg, run, scalarEa_eq]; rfl)
  | ldgAcq d a o => exact .inl (by rw [exec_ldgAcq, execLdgAcq, run, scalarEa_eq]; rfl)
  | stgRel d a o =>
    rw [exec_stgRel, execStgRel, run, scalarEa_eq]
    cases hq : s.quiet u m .c
    · exact .inr (.inl ⟨rfl, rfl, rfl⟩)
    · exact .inl rfl
  | amo d a b x w o =>
    rw [exec_amo, execAmo, run]
    rcases atomic _ with e | ⟨hp, e⟩ <;> rw [e]
    · exact .inl rfl
    · exact .inr (.inr ⟨rfl, hp, rfl⟩)
  | cas d a b w =>
    rw [exec_cas, execCas, run]
    rcases atomic _ with e | ⟨hp, e⟩ <;> rw [e]
    · exact .inl rfl
    · exact .inr (.inr ⟨rfl, hp, rfl⟩)

/-- A word on device memory whose address passes orders 1 to 3 of R174 makes its access, once no posted write of its stream is ahead of
it and, for a releasing store, the earlier words are done. -/
theorem exec_accessForm_device {s : State} {u : Nat} {m : Strand} {c : Client} {i : Instr} {q : Asked} {n : Nat}
    (hf : AccessForm m i q n) (h : ReadyAs s u m c) (hr : q.op = .releaseStore → s.quiet u m .c = true) (hz : fld q.va 63 57 = 0)
    (hn : q.va.toNat % n = 0) (hd : fld q.va 56 52 ≠ 31) (hw : s.writeAhead u m .c q.va = false) :
    exec i s = .next (s.deviceAccess u c (q.access u m)) := by
  obtain ⟨hready, hc⟩ := h
  rcases exec_accessForm hf hready with e | ⟨ho, hq, -⟩ | ⟨-, hp, -⟩
  · rw [e]
    simp [onDevice, Asked.access, mkAccess, hz, hn, hd, hc, hw]
  · simp [hr ho] at hq
  · exact absurd hp hd

theorem reach_self (s : State) (d : DieKey) (route : Nat) : s.reach d d route = true := by
  simp [State.reach, State.reachFrom]

/-- A request that leaves its strand's die is on its way, and its word waits for the answer or has retired. -/
theorem depart_eq_departed (s : State) (u : Nat) (c : Client) (d : DieKey) (a : Access) (route : Nat) (fwd : Bool) (body : Body)
    (ht : a.stream = .c) : s.depart u c.die d a route fwd body = departed s u c d route fwd body a.waits := by
  unfold State.depart departed State.waitFor State.done
  cases a.waits <;> simp [ht]

/-- A request whose bytes the strand's own die does not hold leaves for another die (R163, R164, R170, R191). -/
theorem deviceAccess_leaves {s t : State} {u : Nat} {m : Strand} {c : Client} {q : Asked} (h : Leaves s u m c q t) :
    s.deviceAccess u c (q.access u m) = t := by
  cases h with
  | away s1 p hres hne hreach =>
    simp [State.deviceAccess, Asked.access, mkAccess, hres, hreach, hne, depart_eq_departed, Asked.request, Strand.stream]
  | former s1 p d hres hp hat hne =>
    simp [State.deviceAccess, Asked.access, mkAccess, hres, hp, reach_self, hp ▸ hat, hne, depart_eq_departed, Asked.request,
      Strand.stream]
  | leaf s1 p s2 t far waits a hres hp hat hloc hown hw ha =>
    subst hw ha
    unfold ownBytes at hown
    simp [State.deviceAccess, Asked.access, mkAccess, hres, hp, reach_self, hp ▸ hat, hloc, hown, depart_eq_departed,
      Asked.request, Strand.stream]

/-- A request whose bytes the strand's own die holds is performed there (R174). -/
theorem deviceAccess_inDevice {s s2 : State} {u : Nat} {m : Strand} {c : Client} {q : Asked} {n addr : Nat}
    (h : InDevice s c q.va n q.op.writes s2 addr) : s.deviceAccess u c (q.access u m) = s2.performed u (q.access u m) addr := by
  obtain ⟨-, -, -, s1, p, t, far, hres, hp, hat, hloc, hown, haddr⟩ := h
  subst haddr
  unfold ownBytes at hown
  rw [hp] at hat
  simp only [State.deviceAccess, Asked.access, mkAccess, hres, hp, reach_self, hat, hloc, hown, Bool.not_true, Bool.false_eq_true,
    if_false, if_true, ne_eq, not_true_eq_false]
  rfl

/-- A word on device memory whose bytes the strand's own die holds is performed in its step. -/
theorem exec_accessForm_inDevice {s s2 : State} {u : Nat} {m : Strand} {c : Client} {i : Instr} {q : Asked} {n addr : Nat}
    (hf : AccessForm m i q n) (h : ReadyAs s u m c) (hr : q.op = .releaseStore → s.quiet u m .c = true)
    (hw : s.writeAhead u m .c q.va = false) (hin : InDevice s c q.va n q.op.writes s2 addr) :
    exec i s = .next (s2.performed u (q.access u m) addr) := by
  have ⟨hz, hn, hd, _⟩ := hin
  rw [exec_accessForm_device hf h hr hz hn hd hw, deviceAccess_inDevice hin]

theorem lowOf_eight (v : Word) : lowOf 8 v = v.toNat := Nat.mod_eq_of_lt v.isLt

/-- Settles O25: a request either leaves, as `Leaves` says, or its own die performs it. -/
theorem deviceWordsComplete : Obligations.DeviceWordsComplete := by
  intro i s t u m c h hword
  cases hword with
  | sent i q n t hf hr hz hn hd hw hl => rw [exec_accessForm_device hf h hr hz hn hd hw, deviceAccess_leaves hl]
  | ldg d a sz o s2 addr hw hin => exact exec_accessForm_inDevice (.ldg d a sz o) h nofun hw hin
  | stg d a sz o s2 addr hw hin => exact exec_accessForm_inDevice (.stg d a sz o) h nofun hw hin
  | ldgAcq d a o s2 addr hw hin => exact exec_accessForm_inDevice (.ldgAcq d a o) h nofun hw hin
  | stgRel d a o s2 addr hq hw hin =>
    rw [← lowOf_eight]
    exact exec_accessForm_inDevice (.stgRel d a o) h (fun _ => hq) hw hin
  | amo d a b x w o s2 addr hw hin =>
    have hieee : bit (if m.ieee then 1 else 0) 0 = m.ieee := by cases m.ieee <;> rfl
    rw [exec_accessForm_inDevice (.amo d a b x w o) h nofun hw hin]
    simp only [State.performed, State.performAt, Asked.access, mkAccess, hieee]
    rfl
  | cas d a b w s2 addr hw hin => exact exec_accessForm_inDevice (.cas d a b w) h nofun hw hin

/-! ### What the words on memory leave as it was -/

section

variable {s t : State} {u : Nat} {m : Strand} {c : Client}

theorem exec_accessForm_frame {i : Instr} {q : Asked} {n : Nat} (hf : AccessForm m i q n) (hm : MemOk s) (h : ReadyAs s u m c)
    (he : exec i s = .next t) : WordFrame s u m (StoreBytes s c (q.access u m)) (q.access u m).dest t := by
  obtain ⟨hready, hc⟩ := h
  have ⟨_, hs, _⟩ := hready
  rcases exec_accessForm hf hready with e | ⟨-, -, e⟩ | ⟨-, -, e⟩ <;> cases e.symm.trans he
  · exact .onDevice hm hs hc ..
  · exact .same hs
  · exact .onScratch hm hs hc _

theorem exec_onScratch_frame {i : Instr} {a : Access} (e : exec i s = .next (onScratch s u m a)) (hm : MemOk s)
    (h : ReadyAs s u m c) (he : exec i s = .next t) : WordFrame s u m (StoreBytes s c a) a.dest t := by
  obtain ⟨⟨_, hs, _⟩, hc⟩ := h
  cases e.symm.trans he
  exact .onScratch hm hs hc a

theorem exec_lds_ready (d a : Field) (sz : BitVec 2) (o : BitVec 10) (h : Ready s u m) :
    exec (.lds d a sz o) s =
      .next (onScratch s u m (mkAccess u m .c (.load false) (effective m a sz o) (2 ^ sz.toNat) 0 0 d)) := by
  rw [exec_lds, execLds, onWord_ready s .c false false _ u m h nofun nofun, scalarEa_eq]

theorem exec_sts_ready (d a : Field) (sz : BitVec 2) (o : BitVec 10) (h : Ready s u m) :
    exec (.sts d a sz o) s =
      .next (onScratch s u m (mkAccess u m .c .store (effective m a sz o) (2 ^ sz.toNat) (m.reg d) 0 0)) := by
  rw [exec_sts, execSts, onWord_ready s .c false false _ u m h nofun nofun, scalarEa_eq]

/-- The register that a storing word writes: the old value's, for an atomic (R339, R360). -/
def storeDest : Instr → Option Field
  | .amo d _ _ _ _ _ => some d
  | .cas d _ _ _ => some d
  | _ => none

theorem exec_storeForm_frame {i : Instr} {va : Word} {n : Nat} (hf : StoreForm m i va n) (hm : MemOk s) (h : ReadyAs s u m c)
    (he : exec i s = .next t) : WordFrame s u m (StoredAt s c va n) (storeDest i) t := by
  cases hf with
  | sts d a sz o => exact (exec_onScratch_frame (exec_sts_ready d a sz o h.1) hm h he).mono fun _ hx => hx.2
  | stg d a sz o => exact (exec_accessForm_frame (.stg d a sz o) hm h he).mono fun _ hx => hx.2
  | stgRel d a o => exact (exec_accessForm_frame (.stgRel d a o) hm h he).mono fun _ hx => hx.2
  | amo d a b x w o => exact (exec_accessForm_frame (.amo d a b x w o) hm h he).mono fun _ hx => hx.2
  | cas d a b w => exact (exec_accessForm_frame (.cas d a b w) hm h he).mono fun _ hx => hx.2

theorem exec_loadForm_frame {i : Instr} {d : Field} (hf : LoadForm i d) (hm : MemOk s) (h : ReadyAs s u m c)
    (he : exec i s = .next t) : ∃ fe, WordFrame { s with fe := fe } u m (fun _ => False) (some d) t := by
  have ⟨hready, hc⟩ := h
  have ⟨_, hs, _⟩ := hready
  have run := fun body => onWord_ready s .c false false body u m hready nofun nofun
  cases hf with
  | lds d a sz o =>
    exact ⟨s.fe, (exec_onScratch_frame (exec_lds_ready d a sz o hready) hm h he).mono fun _ hx => Bool.false_ne_true hx.1⟩
  | ldg d a sz o => exact ⟨s.fe, (exec_accessForm_frame (.ldg d a sz o) hm h he).mono fun _ hx => Bool.false_ne_true hx.1⟩
  | ldgAcq d a o => exact ⟨s.fe, (exec_accessForm_frame (.ldgAcq d a o) hm h he).mono fun _ hx => Bool.false_ne_true hx.1⟩
  | ldfK d a sz o =>
    rw [exec_ldfK, execLdfK, run] at he
    cases he
    exact WordFrame.ldf hm hs ..
  | ldfC d a sz o =>
    rw [exec_ldfC, execLdfC, run] at he
    cases he
    exact WordFrame.ldf hm hs ..

/-! ### Full-empty bits -/

theorem mem_natIns (l : List Nat) (k g : Nat) : g ∈ natIns l k ↔ g = k ∨ g ∈ l := by
  induction l with
  | nil => simp [natIns]
  | cons j r ih =>
    unfold natIns
    split
    · simp
    · split
      · next e => simp [e]
      · rw [List.mem_cons, List.mem_cons, ih, or_left_comm]

theorem full_setFull (s : State) (k g : Nat) : (s.setFull k).full g = (g == k || s.full g) := by
  rw [Bool.eq_iff_iff]
  simp [State.full, mem_natIns]

theorem full_setEmpty (s : State) (k g : Nat) : (s.setEmpty k).full g = (!(g == k) && s.full g) := by
  rw [Bool.eq_iff_iff]
  simp [State.full, and_comm]

theorem full_foldl_setFull (l : List Nat) (s : State) (g : Nat) :
    (l.foldl State.setFull s).full g = (l.contains g || s.full g) := by
  induction l generalizing s with
  | nil => rfl
  | cons k r ih => rw [List.foldl_cons, ih, full_setFull, List.contains_cons, Bool.or_left_comm, Bool.or_assoc]

theorem full_foldl_setEmpty (l : List Nat) (s : State) (g : Nat) :
    (l.foldl State.setEmpty s).full g = (!l.contains g && s.full g) := by
  induction l generalizing s with
  | nil => rfl
  | cons k r ih => rw [List.foldl_cons, ih, full_setEmpty, List.contains_cons, Bool.not_or, Bool.and_left_comm, Bool.and_assoc]

theorem foldl_mem {f : State → Nat → State} (hf : ∀ s g, (f s g).mem = s.mem) (l : List Nat) (s : State) :
    (l.foldl f s).mem = s.mem := by
  induction l generalizing s with
  | nil => rfl
  | cons k r ih => rw [List.foldl_cons, ih, hf]

theorem done_mem_fe (s : State) (u : Nat) (st : Stream) : (s.done u st).mem = s.mem ∧ (s.done u st).fe = s.fe := by
  unfold State.done State.upd
  split <;> exact ⟨rfl, rfl⟩

/-- FSET and FCLR over a range that passes its checks change the bits of the range, and no byte (R377). -/
theorem feSet_frame {st : Stream} {p q : Field} {l : List Nat} {f : State → Nat → State} (hf : ∀ s g, (f s g).mem = s.mem)
    (h : ReadyAs s u m c) (hl : s.feRange c (m.reg p) (m.reg q) = .inr l) (hq : m.streamQuiet st = true)
    (he : feSet s st p q f = .next t) : t.mem = s.mem ∧ ∀ g, t.full g = (l.foldl f s).full g := by
  obtain ⟨hready, hc⟩ := h
  have run : feSet s st p q f = .next ((l.foldl f s).done u st) := by
    rw [feSet, onWord_ready s st false false _ u m hready nofun nofun]
    simp [hc, hl, hq]
  cases run.symm.trans he
  obtain ⟨hmem, hfe⟩ := done_mem_fe (l.foldl f s) u st
  exact ⟨hmem.trans (foldl_mem hf l s), fun g => congrArg (·.contains g) hfe⟩

end

/-- Settles O26: every storing or loading word keeps `WordFrame`; FSET and FCLR act on the bits of their range alone. -/
theorem memoryWordsFrame : Obligations.MemoryWordsFrame := by
  refine ⟨?_, ?_, ?_⟩
  · intro i s t u m c va n hm h hf he
    have fr := exec_storeForm_frame hf hm h he
    obtain ⟨k, hk, htab, hreg⟩ := fr.own
    refine ⟨fun x hx hn => fr.mem x ?_ hn, fr.fe, fr.tiles, fr.accs, fr.accOwner, fr.books, k, hk, htab, ?_, ?_, fr.others⟩
    · rintro ⟨addr, ha, hlo, hhi⟩
      have := hx addr ha
      omega
    · rintro d (⟨a, sz, o, rfl⟩ | ⟨a, sz, o, rfl⟩ | ⟨a, o, rfl⟩) <;> exact hreg
    · rintro d (⟨a, b, x, w, o, rfl⟩ | ⟨a, b, w, rfl⟩) <;> exact hreg
  · intro i s t u m c d hm h hf he
    obtain ⟨_, fr⟩ := exec_loadForm_frame hf hm h he
    obtain ⟨k, hk, htab, hreg⟩ := fr.own
    exact ⟨fun x hn => fr.mem x id hn, fr.tiles, fr.accs, fr.accOwner, fr.books, k, hk, htab, hreg, fr.others⟩
  · intro s t u m c st p q x l g h hl hq
    constructor <;> intro he
    · obtain ⟨hmem, hfull⟩ := feSet_frame State.setFull_mem h hl hq he
      exact ⟨hmem, (hfull g).trans (full_foldl_setFull l s g)⟩
    · obtain ⟨hmem, hfull⟩ := feSet_frame State.setEmpty_mem h hl hq he
      exact ⟨hmem, (hfull g).trans (full_foldl_setEmpty l s g)⟩

end Sys2Proof
end

section
/-! PROOFS. The CSR words, the rows of messages between dies, and the rows of a flit and of a request that times out. -/

namespace Sys2Proof.Machine

/-! ### Registers without a writable field -/

/-- A write of a register that has no writable field changes nothing (R75). -/
theorem State.csrWrite_of_not_writable {n : Nat} (ha : csrAllocated n = true) (hw : csrWritable n = false) (s : State) (u : Nat)
    (m : Strand) (r : Rank) (rot : Field) (v clr : Word) : s.csrWrite u m r rot n v clr = .inr s := by
  simp only [csrWritable, List.contains_eq_mem, List.mem_cons, List.not_mem_nil, or_false, Bool.decide_or,
    Bool.or_eq_false_iff, decide_eq_false_iff_not, Bool.and_eq_false_imp, decide_eq_true_eq, Nat.not_lt, Nat.not_le] at hw
  simp only [csrAllocated, Bool.or_eq_true, decide_eq_true_eq, Bool.and_eq_true] at ha
  simp (disch := omega) only [State.csrWrite, Bool.and_eq_true, decide_eq_true_eq, if_neg]

theorem Strand.lfAdvance_of_not_writable {n : Nat} (hw : csrWritable n = false) (m : Strand) : m.lfAdvance n = m := by
  have hn : n ≠ 0x205 := by
    rintro rfl
    exact absurd hw (by decide)
  simp [Strand.lfAdvance, hn]

/-! ### A request at its target die -/

section

variable {s : State} {q : Msg} {a : Access} {t : Target} {addr : Nat} {polder : Bool} {v : Word} {s1 : State}

theorem State.serve_of_phys (hp : a.phys = some (addr, polder)) : s.serve q a = s.serveThere q a addr polder := by
  simp [State.serve, hp]

/-- A request that its target die translates goes on as the leaf says (R170). -/
theorem State.serve_of_located {far : Bool} (hp : a.phys = none) (hf : s.forwardOf q.dst a.job a.key = some q.dst)
    (hl : s.locateLeaf ⟨q.dst, a.key, a.off⟩ a.job a.home q.src a.op.writes = (s1, .ok t, far)) :
    s.serve q a = s1.carryOn q a t := by
  simp [State.serve, hp, hf, hl]

theorem State.serve_of_faulted {e : BitVec 8} {far : Bool} (hp : a.phys = none) (hf : s.forwardOf q.dst a.job a.key = some q.dst)
    (hl : s.locateLeaf ⟨q.dst, a.key, a.off⟩ a.job a.home q.src a.op.writes = (s1, .fault e, far)) :
    s.serve q a = s1.refuse q a e far := by
  simp [State.serve, hp, hf, hl]

theorem State.serveThere_strayed (hs : s.strayed a.via q.dst a.job a.key a.off addr = true) :
    s.serveThere q a addr polder = s.setMsg (q.onward a.via a.off (.access { a with phys := none })) := by
  simp [State.serveThere, hs, Msg.retranslate]

theorem State.serveThere_performs (hs : s.strayed a.via q.dst a.job a.key a.off addr = false)
    (hl : polder = true → (s.die q.dst).lends (peerOf a.via) (addr % 2 ^ 40 / 65536) = true)
    (hw : s.pageWait a.via a.job a.key a.off a.op.writes = none) (hv : s.perform a addr = (v, s1)) :
    s.serveThere q a addr polder = s1.answer q a v := by
  cases polder with
  | false => simp [State.serveThere, hs, hw, hv]
  | true => simp [State.serveThere, hs, hl rfl, hw, hv, -Nat.reducePow]

theorem State.serveThere_polder_lost (hs : s.strayed a.via q.dst a.job a.key a.off addr = false)
    (hl : (s.die q.dst).lends (peerOf a.via) (addr % 2 ^ 40 / 65536) = false) :
    s.serveThere q a addr true = s.refuse q a cPOLDER_LOST true := by
  simp [State.serveThere, hs, hl, -Nat.reducePow]

theorem State.carryOn_performs (hl : t.local_ = true) (hp : postsAway q a t = false)
    (hv : s.perform { a with via := t.via } t.addr = (v, s1)) : s.carryOn q a t = s1.answer q a v := by
  unfold postsAway at hp
  simp only [State.carryOn, hl, hp, hv, if_true, Bool.false_eq_true, if_false]

theorem State.carryOn_stays (hl : t.local_ = true) (hp : postsAway q a t = true) :
    s.carryOn q a t = (s.setMsg { q with body := .access (translatedBy q a t) }).letGo q a := by
  unfold postsAway at hp
  simp only [State.carryOn, hl, hp, if_true, translatedBy, postsAway]

theorem State.carryOn_leaves (hl : t.local_ = false) :
    s.carryOn q a t = if postsAway q a t then (s.setMsg (q.onward t.die (t.addr % 2 ^ 40) (onwardBody q a t))).letGo q a
      else s.setMsg (q.onward t.die (t.addr % 2 ^ 40) (onwardBody q a t)) := by
  simp only [State.carryOn, hl, Bool.false_eq_true, if_false]
  rfl

end

/-! ### An answer at its strand -/

@[simp] theorem State.dropMsg_strand (s : State) (j u : Nat) : (s.dropMsg j).strand u = s.strand u := rfl

@[simp] theorem State.dropMsg_ids (s : State) (j : Nat) : (s.dropMsg j).ids = s.ids := rfl

/-- A strand of which no fault is noted goes on. -/
theorem State.takeFault_setStrand (s : State) (u : Nat) {m : Strand} (hn : m.noted = []) :
    (s.setStrand u m).takeFault u = s.setStrand u m := by
  simp [State.takeFault, Strand.recorded, hn, leastBy]

theorem Strand.retire_noted (m : Strand) (st : Stream) : (m.retire st).noted = m.noted := by
  cases st <;> rfl

/-! ### Aborts, hops and failures -/

/-- The member's command stops at its current chunk and is abandoned; of a running one the chunks in flight are torn (R265). -/
theorem State.abortCmd_ok {s s0 s1 s2 : State} {u slot : Nat} {c : Client} {k : Cmd}
    (h0 : s0 = if k.state = .running then (natRange k.next 16).foldl (fun (acc : State) i => acc.tearChunk c k i) s else s)
    (hf : s0.cmdFault u slot c k cPEER_UNREACHABLE true (k.dst + wd (4096 * k.next)) = .ok s1)
    (ha : s1.abandon u slot c k = .ok s2) : s.abortCmd u slot c k = .ok s2 := by
  subst h0
  simp [State.abortCmd, hf, ha]

/-- After six links a flit goes on nowhere (R255). -/
theorem State.hop_refuse {s : State} {p : Pkg} {src dst : DieKey} {route hops : Nat} (hh : 6 ≤ hops)
    (hd : p ≠ pkgOf dst ∨ bit (s.route p (pkgOf dst)) 63 = false) : s.hop p src dst route hops = .refuse := by
  have away : ¬ ((p = pkgOf dst ∧ bit (s.route p (pkgOf dst)) 63 = true) ∧ fld (s.route p (pkgOf dst)) 22 20 = 0) := by
    rintro ⟨⟨hp, hb⟩, -⟩
    rcases hd with hd | hd
    · exact hd hp
    · simp [hd] at hb
  simp [State.hop, away, hh]

section

variable {s : State} {q : Msg} {a : Access}

/-- A request that its word waits for fails at the word (R174, R257). -/
theorem State.failMsg_precise (hb : q.body = .access a) (hp : a.op.posts = false ∨ (a.waits = true ∧ a.phys ≠ none)) :
    s.failMsg q = (s.dropMsg q.id).send q.src q.src (64 * s.ids) (.refuse a.uid a.stream cPEER_UNREACHABLE a.va q.id) := by
  have answers : ¬ (a.op.posts = true ∧ (a.waits = false ∨ a.phys = none)) := by
    rintro ⟨ho, hw⟩
    rcases hp with hp | ⟨hw2, hphys⟩
    · simp [ho] at hp
    · simp [hw2, hphys] at hw
  simp [State.failMsg, State.failStrand, hb, answers]

/-- The failure of a write that needs no answer is posted (R90, R242). -/
theorem State.failMsg_posted (hb : q.body = .access a) (hp : a.op.posts = true) (hw : a.waits = false) :
    s.failMsg q = (s.dropMsg q.id).send q.src q.src (64 * s.ids)
      (.post a.uid ⟨wordOf a.va, peerOf q.dst, cPEER_UNREACHABLE⟩) := by
  simp [State.failMsg, hb, hp, hw]

/-- The failure of a write that has waited for its translation is posted, and its word goes on (log 96). -/
theorem State.failMsg_posted_goesOn {t : State} (hb : q.body = .access a) (hp : a.op.posts = true) (hw : a.waits = true)
    (hphys : a.phys = none) (ht : t = (s.dropMsg q.id).send q.src q.src (64 * s.ids)
      (.post a.uid ⟨wordOf a.va, peerOf q.dst, cPEER_UNREACHABLE⟩)) :
    s.failMsg q = t.send q.src q.src (64 * t.ids) (.goOn a.uid a.stream a.va q.id) := by
  subst ht
  simp [State.failMsg, hb, hp, hw, hphys]

end

end Sys2Proof.Machine

namespace Sys2Proof

open Sys2Proof.Machine

/-! ### The CSR words -/

section

variable {s : State} {u : Nat} {m : Strand} {i : Instr} {d : Field} {n : BitVec 12} {w : Bool} {f : Word → Word} {clr : Word}

/-- Each form of the CSR words is the one word of R370. -/
theorem CsrForm.exec_eq (hf : CsrForm m i d n w f clr) (s : State) :
    ∃ value clear, exec i s = csrWord s d n w value clear ∧ value m = f ∧ clear m = clr := by
  cases hf with
  | r => exact ⟨_, _, exec_csrR .., rfl, rfl⟩
  | w => exact ⟨_, _, exec_csrW .., rfl, rfl⟩
  | s => exact ⟨_, _, exec_csrS .., rfl, rfl⟩
  | c => exact ⟨_, _, exec_csrC .., rfl, rfl⟩

/-- An unprivileged strand has no register from 0x600 on (R75). -/
theorem csrForm_privileged_number (h : Ready s u m) (hf : CsrForm m i d n w f clr) (hp : m.priv = false)
    (hn : 0x600 ≤ n.toNat) : exec i s = .next (s.raise u .c cPRIV 0 0) := by
  obtain ⟨value, clear, e, -, -⟩ := hf.exec_eq s
  rw [e, csrWord, onWord_ready s .c false false _ u m h nofun nofun]
  simp [hp, hn]

/-- The first check of R75 passes for a privileged strand, and below 0x600. -/
theorem csr_number_allowed (hp : m.priv = true ∨ n.toNat < 0x600) : ¬ (m.priv = false ∧ 0x600 ≤ n.toNat) := by
  rintro ⟨hu, hn⟩
  rcases hp with hp | hp
  · simp [hu] at hp
  · omega

/-- A number of no register is found once the strand may name it (R75). -/
theorem csrForm_unallocated (h : Ready s u m) (hf : CsrForm m i d n w f clr) (hp : m.priv = true ∨ n.toNat < 0x600)
    (ha : csrAllocated n.toNat = false) : exec i s = .next (s.raise u .c cILLEGAL 0 0) := by
  obtain ⟨value, clear, e, -, -⟩ := hf.exec_eq s
  have allowed := csr_number_allowed hp
  rw [e, csrWord, onWord_ready s .c false false _ u m h nofun nofun]
  simp [allowed, ha]

/-- A write marked privileged is the last thing that is checked (R75). -/
theorem csrForm_privileged_write (h : Ready s u m) (hf : CsrForm m i d n w f clr) (hp : m.priv = false)
    (hn : n.toNat < 0x600) (ha : csrAllocated n.toNat = true) (hw : w = true) (hm : csrPrivWrite n.toNat = true) :
    exec i s = .next (s.raise u .c cPRIV 0 0) := by
  obtain ⟨value, clear, e, -, -⟩ := hf.exec_eq s
  rw [e, csrWord, onWord_ready s .c false false _ u m h nofun nofun]
  simp [hp, Nat.not_le.mpr hn, ha, hw, hm]

/-- Past the checks the word stores what its form writes, if it writes, and takes the old value to `d` (R370). -/
theorem csrForm_completes {r : Rank} {old : Word} {s1 : State} (h : Ready s u m) (hr : s.rank? m.rank = some r)
    (hf : CsrForm m i d n w f clr) (ha : csrAllocated n.toNat = true)
    (hp : m.priv = true ∨ (n.toNat < 0x600 ∧ (w = true → csrPrivWrite n.toNat = false)))
    (hold : s.csrRead u m r (m.rotAt .c) n.toNat = some old) (hkeep : w = false → s1 = s)
    (hwrite : w = true → s.csrWrite u m r (m.rotAt .c) n.toNat (f old) clr = .inr s1) :
    exec i s = .next (s1.upd u fun k => ((k.lfAdvance n.toNat).setReg d old).retire .c) := by
  obtain ⟨value, clear, e, rfl, rfl⟩ := hf.exec_eq s
  have allowed := csr_number_allowed (hp.imp_right And.left)
  have writable : ¬ ((m.priv = false ∧ w = true) ∧ csrPrivWrite n.toNat = true) := by
    rintro ⟨⟨hu, hw⟩, hm⟩
    rcases hp with hp | ⟨-, hp⟩
    · simp [hu] at hp
    · simp [hp hw] at hm
  rw [e, csrWord, onWord_ready s .c false false _ u m h nofun nofun]
  simp only [ge_iff_le, Bool.and_eq_true, Bool.not_eq_eq_eq_not, Bool.not_true, decide_eq_true_eq, allowed, writable, ha, hr,
    hold, if_false]
  cases w with
  | false => simp [hkeep rfl]
  | true => simp [hwrite rfl]

end

/-- Settles O20: the three checks of R75 in their order, and past them one completion for all forms. -/
theorem csrWordsComplete : Obligations.CsrWordsComplete := by
  refine ⟨?_, ?_, ?_⟩
  · intro i d n w f clr old s u m r h hr hf ha hp hold
    refine ⟨fun hw => ?_, fun hw s1 hs1 => ?_⟩
    · exact csrForm_completes h hr hf ha hp hold (fun _ => rfl) (by simp [hw])
    · exact csrForm_completes h hr hf ha hp hold (by simp [hw]) fun _ => hs1
  · intro i d n f clr old s u m r h hr hf ha hro hp hold
    have completed := csrForm_completes h hr hf ha (hp.imp_right fun hp => ⟨hp.1, fun _ => hp.2⟩) hold nofun
      fun _ => State.csrWrite_of_not_writable ha hro s u m r (m.rotAt .c) (f old) clr
    simpa only [Strand.lfAdvance_of_not_writable hro] using completed
  · intro i d n w f clr s u m h hf
    exact ⟨csrForm_privileged_number h hf, csrForm_unallocated h hf, csrForm_privileged_write h hf⟩

/-! ### The rows of a message whose turn has come -/

section

variable {s : State} {q : Msg}

theorem Due.subjectMsg (h : Due s q) : s.subjectMsg = some q := h

theorem exec_peerRequest_due {a : Access} (h : Due s q) (hb : q.body = .access a) :
    exec .peerRequest s = .next (s.serve q a) := by
  simp [execPeerRequest, h.subjectMsg, hb]

theorem exec_polderRequest_due {a : Access} {at_ : Nat} (h : Due s q) (hb : q.body = .polder a at_) :
    exec .polderRequest s = .next (s.serve q a) := by
  simp [execPolderRequest, h.subjectMsg, hb]

theorem exec_peerResponse_due (h : Due s q) : exec .peerResponse s = .next (s.respond q) := by
  simp [execPeerResponse, h.subjectMsg]

theorem exec_errorQueuePost_due {u : Nat} {e : ErrEntry} (h : Due s q) (hb : q.body = .post u e) :
    exec .errorQueuePost s = .next ((s.dropMsg q.id).enqueueError u e) := by
  simp [execErrorQueuePost, h.subjectMsg, hb]

theorem exec_collectiveMessage_due {w : CollMsg} {r : Rank} (h : Due s q) (hb : q.body = .coll w)
    (hr : s.reached q.dst w.dest = .here r) : exec .collectiveMessage s = .next (s.collHandle q w r) := by
  simp [execCollectiveMessage, h.subjectMsg, hb, hr]

/-- An abort at the member's home die stops and abandons the member's command (R265). -/
theorem exec_collectiveAbort_due {comm dest u slot : Nat} {seq : BitVec 32} {r : Rank} {k k1 : Cmd} {n : Strand} {c : Client}
    {s1 : State} (h : Due s q) (hb : q.body = .abort comm seq dest) (hr : s.reached q.dst dest = .here r)
    (hc : s.collCmd dest comm seq = some (u, slot, k)) (hk : s.cmdAt u k = some (n, c, k1))
    (ha : s.abortCmd u slot c k = .ok s1) : exec .collectiveAbort s = .next (s1.dropMsg q.id) := by
  simp [execCollectiveAbort, h.subjectMsg, hb, hr, hc, hk, ha, Except.map]

/-- An abort of a collective that the member has completed is dropped (R265). -/
theorem exec_collectiveAbort_completed {comm dest : Nat} {seq : BitVec 32} {r : Rank} (h : Due s q)
    (hb : q.body = .abort comm seq dest) (hr : s.reached q.dst dest = .here r) (hc : s.collCmd dest comm seq = none)
    (hseq : (seq - (r.comm comm).seq).msb = true) : exec .collectiveAbort s = .next (s.dropMsg q.id) := by
  simp [execCollectiveAbort, h.subjectMsg, hb, hr, hc, hseq]

theorem exec_endpointUpdate_due {job : BitVec 32} {vrank : BitVec 16} {entry : Word} {s1 : State} (h : Due s q)
    (hb : q.body = .endpoint job vrank entry)
    (hp : s.putEndpoints vrank entry (s.ranks.filter fun e => e.2.job = job && e.2.home = q.dst) = .ok s1) :
    exec .endpointUpdate s = .next (s1.dropMsg q.id) := by
  simp only [exec_endpointUpdate, execEndpointUpdate, h.subjectMsg, hb, hp, Except.map, State.attempt_ok]

end

/-- Every row of a message comes to the one operation of its body, and there to the state that its constructor gives. -/
theorem messageRow_acts {s t : State} {q : Msg} {i : Instr} (h : Due s q) (hrow : MessageRow s q i t) : exec i s = .next t := by
  cases hrow with
  | placed a addr v s1 hb hp hs hw hv =>
    rw [exec_peerRequest_due h hb, State.serve_of_phys hp,
      State.serveThere_performs (polder := false) hs nofun hw hv]
  | translated a s1 t far v s2 hb hp hf hl hloc hpost hv =>
    rw [exec_peerRequest_due h hb, State.serve_of_located hp hf hl, State.carryOn_performs hloc hpost hv]
  | goesOn a s1 t far hb hp hf hl hloc hpost =>
    rw [exec_peerRequest_due h hb, State.serve_of_located hp hf hl, State.carryOn_stays hloc hpost]
  | sentOn a s1 t far hb hp hf hl hloc hpost =>
    rw [exec_peerRequest_due h hb, State.serve_of_located hp hf hl, State.carryOn_leaves hloc, hpost]
    rfl
  | postedOn a s1 t far hb hp hf hl hloc hpost =>
    rw [exec_peerRequest_due h hb, State.serve_of_located hp hf hl, State.carryOn_leaves hloc, if_pos hpost]
  | refused a s1 e far hb hp hf hl => rw [exec_peerRequest_due h hb, State.serve_of_faulted hp hf hl]
  | strayed a addr b hb hp hs => rw [exec_peerRequest_due h hb, State.serve_of_phys hp, State.serveThere_strayed hs]
  | polder a at_ addr v s1 hb hp hs hlend hw hv =>
    rw [exec_polderRequest_due h hb, State.serve_of_phys hp, State.serveThere_performs hs (fun _ => hlend) hw hv]
  | polderLost a at_ addr hb hp hs hlend =>
    rw [exec_polderRequest_due h hb, State.serve_of_phys hp, State.serveThere_polder_lost hs hlend]
  | reply u st d v va req m hb hm hw hn =>
    rw [exec_peerResponse_due h]
    simp [State.respond, hb, hm, hw, State.takeFault_setStrand, Strand.retire_noted, hn]
  | late u st d v va req m hb hm hw =>
    rw [exec_peerResponse_due h]
    simp [State.respond, hb, hm, hw]
  | refusal u st e va req m hb hm hw =>
    rw [exec_peerResponse_due h]
    simp [State.respond, hb, hm, hw]
  | letGo u st va req m hb hm hw hn =>
    rw [exec_peerResponse_due h]
    simp [State.respond, hb, hm, hw, State.takeFault_setStrand, Strand.retire_noted, hn]
  | leaseOutcome status le be p ticket hb =>
    rw [exec_peerResponse_due h]
    simp [State.respond, hb]
  | leaseStatus status le be u d m hb hm hw hn =>
    rw [exec_peerResponse_due h]
    simp [State.respond, hb, hm, hw, State.takeFault_setStrand, Strand.retire_noted, hn]
  | posted u e m hb hm hne hlt =>
    rw [exec_errorQueuePost_due h hb]
    simp [State.enqueueError, hm, hne, Nat.not_le.mpr hlt]
  | postedFirst u e m hb hm he =>
    rw [exec_errorQueuePost_due h hb]
    simp [State.enqueueError, hm, he]
  | postedFull u e m hb hm hfull =>
    rw [exec_errorQueuePost_due h hb]
    simp [State.enqueueError, hm, hfull]
  | begins w r u slot k0 k n c hd p l s1 s2 x hb hr hc hk hh hrun hn hph hbeg hro hsrc =>
    rw [exec_collectiveMessage_due h hb hr]
    have goes : ¬ (k.state ≠ .running ∨ n.state = .faulted) := by simp [hrun, hn]
    simp only [State.collHandle, hc, hk, hh, Bool.or_eq_true, decide_eq_true_eq, goes, if_false, hph, if_true, hbeg,
      Bool.false_eq_true, hro, hsrc]
  | hop w r u slot k0 k n c s1 x act hb hr hc hk hh hrun hn hph hbeg hsrc htake =>
    rw [exec_collectiveMessage_due h hb hr]
    simp [State.collHandle, hc, hk, hh, hrun, hn, hph, hbeg, hsrc, htake]
  | abort comm seq dest r u slot k n c k1 s1 s2 hb hr hc hk hst hf ha =>
    exact exec_collectiveAbort_due h hb hr hc hk (State.abortCmd_ok (if_neg hst).symm hf ha)
  | abortTorn comm seq dest r u slot k n c k1 s0 s1 s2 hb hr hc hk hst h0 hf ha =>
    exact exec_collectiveAbort_due h hb hr hc hk (State.abortCmd_ok (h0.trans (if_pos hst).symm) hf ha)
  | aborted comm seq dest r hb hr hc hseq => exact exec_collectiveAbort_completed h hb hr hc hseq
  | endpoint job vrank entry s1 hb hp => exact exec_endpointUpdate_due h hb hp

/-- A request and a release act at their cell's bytes, a grant at its strand (R209, R332). -/
theorem cellRow_acts {s t : State} {q : Msg} {i : Instr} (h : Due s q) (hrow : CellRow s q i t) : exec i s = .next t := by
  cases hrow with
  | request a excl s1 addr a1 d hb hat hw => simp [execCellRequest, h.subjectMsg, hb, hat, hw]
  | release a excl s1 addr a1 d hb hat hw => simp [execCellRelease, h.subjectMsg, hb, hat, hw]
  | grant u excl m hb hm hwait hi => simp [execCellGrant, h.subjectMsg, hb, hm, hwait, hi]
  | grantLater u excl m hb hm hwait => simp [execCellGrant, h.subjectMsg, hb, hm, hwait]

/-- Settles O48: each row of a message, and each row of a cell's message, acts as its constructor says. -/
theorem messagesAct : Obligations.MessagesAct :=
  ⟨fun _ _ _ _ => messageRow_acts, fun _ _ _ _ => cellRow_acts⟩

/-! ### Flits -/

section

variable {s : State} {q : Msg} {a : Access}

/-- A request held after a change of route stays where it is (R257). -/
theorem exec_flitForward_held (hq : s.msg? s.subject = some q) (hr : s.routeHeld q = true) :
    exec .flitForward s = .next s := by
  simp [execFlitForward, hq, hr]

/-- The hop of a flit that is on its way and not held decides (R255). -/
theorem exec_flitForward_moves (hq : s.msg? s.subject = some q) (ha : q.arrived = false) (hl : s.alive q.at_ = true)
    (hr : s.routeHeld q = false) (hh : q.hops ≠ lostHops) :
    (s.hop q.at_ q.src q.dst q.route q.hops = .deliver → exec .flitForward s = .next (s.setMsg { q with arrived := true })) ∧
    (∀ p, s.hop q.at_ q.src q.dst q.route q.hops = .send (some p) →
      exec .flitForward s = .next (s.setMsg { q with at_ := p, hops := q.hops + 1 })) ∧
    (s.hop q.at_ q.src q.dst q.route q.hops = .refuse → q.body.asks = true → exec .flitForward s = .next (s.failMsg q)) := by
  refine ⟨fun e => ?_, fun p e => ?_, fun e hasks => ?_⟩
  · simp [execFlitForward, hq, ha, hl, hr, hh, e]
  · simp [execFlitForward, hq, ha, hl, hr, hh, e]
  · simp [execFlitForward, hq, ha, hl, hr, hh, e, hasks]

/-! ### Requests that time out -/

theorem exec_requestTimeout_young (hq : s.msg? s.subject = some q) (hage : q.age < 2 ^ 20) :
    exec .requestTimeout s = .next s := by
  have young : ¬ Config.timeoutCycles ≤ q.age := Nat.not_le.mpr hage
  simp [execRequestTimeout, hq, young]

theorem exec_requestTimeout_old (hq : s.msg? s.subject = some q) (hb : q.body = .access a) (hage : 2 ^ 20 ≤ q.age) :
    exec .requestTimeout s = .next (s.failMsg q) := by
  have old : Config.timeoutCycles ≤ q.age := hage
  simp [execRequestTimeout, hq, hb, old]

end

/-- Settles O49: the hop decides for a flit, and the age for a request; a failed request is refused or posted. -/
theorem flitsMoveAndRequestsTimeOut : Obligations.FlitsMoveAndRequestsTimeOut := by
  intro s q hq
  refine ⟨fun _ _ hr => exec_flitForward_held hq hr, ?_, ?_, ?_, exec_requestTimeout_young hq⟩
  · intro ha hl hr hh
    obtain ⟨delivered, sent, refused⟩ := exec_flitForward_moves hq ha hl hr hh
    exact ⟨delivered, sent, fun hlinks haway => refused (State.hop_refuse hlinks haway)⟩
  · intro a hb hage hp
    rw [exec_requestTimeout_old hq hb hage, State.failMsg_precise hb hp]
  · intro a t hb hage hp ht
    refine ⟨fun hw => ?_, fun hw hphys => ?_⟩
    · rw [exec_requestTimeout_old hq hb hage, State.failMsg_posted hb hp hw, ht]
    · rw [exec_requestTimeout_old hq hb hage, State.failMsg_posted_goesOn hb hp hw hphys ht]

end Sys2Proof
end

section
/-! PROOFS. Invalidation of the TLB, the page and lease words, the page engines' rows and the lease messages. -/

namespace Sys2Proof.Machine

/-! ### Invalidation -/

theorem State.die_setDie (s : State) (d : DieKey) (v : Die) : (s.setDie d v).die d = v := by
  simp [State.die, tabAt]

theorem State.die_setDie_ne (s : State) {d k : DieKey} (v : Die) (h : d ≠ k) : (s.setDie k v).die d = s.die d := by
  have hk : d.toNat ≠ k.toNat := fun e => h (BitVec.eq_of_toNat_eq e)
  simp [State.die, tabAt, tabGet_tabPut_ne _ _ _ _ hk]

/-- No entry of the TLB covers the offset. -/
def Die.forgets (v : Die) (job : BitVec 32) (key off : Nat) : Prop :=
  ∀ e, e ∈ v.tlb → ¬ (e.job = job ∧ e.key = key ∧ e.page = off / 2 ^ sizeBits e.size.toNat)

theorem Die.forgets_of_subset {v w : Die} {job : BitVec 32} {key off : Nat} (h : v.forgets job key off) (hw : w.tlb ⊆ v.tlb) :
    w.forgets job key off := fun e he => h e (hw he)

/-- The three searches of a lookup all fail in a TLB that does not cover the offset (R175). -/
theorem Die.tlbHit_eq_none {v : Die} {job : BitVec 32} {key off : Nat} (h : v.forgets job key off) :
    v.tlbHit job key off = none := by
  have misses (size : Nat) : (v.tlb.find? fun e =>
      e.job = job && e.key = key && e.size.toNat = size && e.page = off / 2 ^ sizeBits size) = none := by
    rw [List.find?_eq_none]
    intro e he hit
    simp only [Bool.and_eq_true, decide_eq_true_eq] at hit
    obtain ⟨⟨⟨hjob, hkey⟩, rfl⟩, hpage⟩ := hit
    exact h e he ⟨hjob, hkey, hpage⟩
  simp [Die.tlbHit, misses]

theorem State.invalPage_forgets (s : State) (d : DieKey) (job : BitVec 32) (key off : Nat) :
    ((s.invalPage d job key off).die d).forgets job key off := by
  rintro e he ⟨hjob, hkey, hpage⟩
  rw [State.invalPage, State.updDie, State.die_setDie] at he
  simpa [hjob, hkey, hpage] using (List.mem_filter.mp he).2

theorem State.invalSpace_forgets (s : State) (d : DieKey) (job : BitVec 32) (key off : Nat) :
    ((s.invalSpace d job key).die d).forgets job key off := by
  rintro e he ⟨hjob, hkey, -⟩
  rw [State.invalSpace, State.updDie, State.die_setDie] at he
  simpa [hjob, hkey] using (List.mem_filter.mp he).2

/-- An invalidation at any die brings no entry to a TLB. -/
theorem State.invalPage_tlb_subset (s : State) (k d : DieKey) (job : BitVec 32) (key off : Nat) :
    ((s.invalPage k job key off).die d).tlb ⊆ (s.die d).tlb := by
  unfold State.invalPage State.updDie
  by_cases h : d = k
  · subst h
    rw [State.die_setDie]
    exact fun _ he => (List.mem_filter.mp he).1
  · rw [State.die_setDie_ne _ _ h]
    exact List.Subset.refl _

theorem State.foldl_invalPage_tlb_subset (l : List DieKey) (s : State) (d : DieKey) (job : BitVec 32) (key off : Nat) :
    ((l.foldl (fun acc k => acc.invalPage k job key off) s).die d).tlb ⊆ (s.die d).tlb := by
  induction l generalizing s with
  | nil => exact List.Subset.refl _
  | cons k r ih => exact List.Subset.trans (ih _) (s.invalPage_tlb_subset k d job key off)

/-- The page form invalidates at the target die first; what it does at the dies of a replica set brings nothing back (R177). -/
theorem State.tlbInval_forgets (s : State) (job : BitVec 32) (p : Spot) :
    ((s.tlbInval job p).die p.die).forgets job p.key p.off := by
  rw [State.tlbInval, List.cons_append, List.foldl_cons]
  exact Die.forgets_of_subset (s.invalPage_forgets p.die job p.key p.off) (State.foldl_invalPage_tlb_subset ..)

/-! ### Messages and leases -/

@[simp] theorem State.dropMsg_die (s : State) (j : Nat) (d : DieKey) : (s.dropMsg j).die d = s.die d := rfl

@[simp] theorem State.updDie_ids (s : State) (d : DieKey) (f : Die → Die) : (s.updDie d f).ids = s.ids := rfl

/-- Which pages of a lease are live is read from memory and the die's tables. -/
@[simp] theorem State.dropMsg_liveFrom (s : State) (j : Nat) (d : DieKey) (p : Polder) (i : Nat) :
    (s.dropMsg j).liveFrom d p i = s.liveFrom d p i := rfl

/-- A lender serves a region that it reclaims until its deadline has run down (R197). -/
theorem Polder.serves_reclaiming {p : Polder} (hb : p.borrower = false) (hst : p.state = 3) (hd : p.dleft ≠ 0) :
    p.serves = true := by
  simpa [Polder.serves, hb, hst] using hd

end Sys2Proof.Machine

namespace Sys2Proof

open Sys2Proof.Machine

/-! ### Invalidation -/

/-- Settles O35: neither form leaves an entry that a lookup of the offset could hit. -/
theorem invalidationRemovesEntries : Obligations.InvalidationRemovesEntries := fun s job p d key off =>
  ⟨Die.tlbHit_eq_none (s.tlbInval_forgets job p), Die.tlbHit_eq_none (s.invalSpace_forgets d job key off)⟩

/-! ### The page words -/

section

variable {s s1 : State} {u : Nat} {m : Strand} {c : Client}

/-- A privileged strand's word of the C stream that is barred from no slot comes to its own entry (R305). -/
theorem onWord_privileged (h : ReadyAs s u m c) (hp : m.priv = true) (body : Nat → Strand → State) :
    onWord s .c false true body = .next (body u m) :=
  onWord_ready s .c false true body u m h.1 nofun fun _ => hp

/-- An invalidation whose address passes its checks takes place once no request is out that the space has translated (R177). -/
theorem tlbiWord_completes {p : Field} {q : Spot} {space : Bool} (h : ReadyAs s u m c) (hp : m.priv = true)
    (hc : s.spaceCheck c (m.reg p) = (s1, .ok q)) (ho : s1.translatedOut c.job q.key = false) :
    tlbiWord p space s =
      .next ((if space then s1.invalSpace q.die c.job q.key else s1.tlbInval c.job q).upd u fun k => k.retire .c) := by
  rw [tlbiWord, onWord_privileged h hp]
  simp [h.2, hc, ho, State.done]

variable {i : Instr} {d a : Field} {arg : Word} {b : Bool} {p : Spot} {l : LeafAt}

/-- Each procedure is the one word of R179, with an argument within its bits. -/
theorem PageForm.exec_eq (hf : PageForm m i d a arg b) (s : State) :
    ∃ value n, exec i s = pageWord s d a value n b ∧ value m = arg ∧ arg.toNat < 2 ^ n := by
  cases hf with
  | split => exact ⟨_, _, exec_pgsplit .., rfl, Nat.two_pow_pos 64⟩
  | coll _ _ _ hb => exact ⟨_, _, exec_pgcoll .., rfl, hb⟩
  | mig _ _ _ hb => exact ⟨_, _, exec_pgmig .., rfl, hb⟩

/-- A procedure whose status is decided at once writes it and retires (R179). -/
theorem pageForm_ends_at_once {e : Nat} (h : ReadyAs s u m c) (hp : m.priv = true) (hf : PageForm m i d a arg b)
    (hc : s.spaceCheck c (m.reg a) = (s1, .ok p))
    (he : pageEarly (s1.die p.die) c.job p (s1.walk p.die c.job p.key p.off) false = some e) :
    exec i s = .next (s1.upd u fun k => (k.setReg d (wd e)).retire .c) := by
  obtain ⟨value, n, hexec, rfl, hn⟩ := hf.exec_eq s
  rw [hexec, pageWord, onWord_privileged h hp]
  simp [h.2, hc, he, Nat.not_le.mpr hn]

/-- A leaf that nothing holds and whose mode is not reserved decides no status (R179, R183). -/
theorem pageEarly_none {v : Die} {job : BitVec 32} (hh : v.heldAt job p.key p.off = none) (hm : leafMode l.leaf ≠ 3) :
    pageEarly v job p (some l) false = none := by
  simp [pageEarly, hh, hm]

/-- A procedure that goes on holds its page, once no sweep has yet to do it (R135, R183). -/
theorem pageForm_holds (h : ReadyAs s u m c) (hp : m.priv = true) (hf : PageForm m i d a arg b)
    (hc : s.spaceCheck c (m.reg a) = (s1, .ok p)) (hl : s1.walk p.die c.job p.key p.off = some l)
    (hh : (s1.die p.die).heldAt c.job p.key p.off = none) (hm : leafMode l.leaf ≠ 3)
    (hs : s1.unsweptIn p.die c.job p.key (p.off / 2 ^ sizeBits l.size * 2 ^ sizeBits l.size) (sizeUnits l.size) = none) :
    exec i s = .next ((holdPage s1 u c.job p l arg b).upd u fun k => k.setWait .c .page) := by
  obtain ⟨value, n, hexec, rfl, hn⟩ := hf.exec_eq s
  rw [hexec, pageWord, onWord_privileged h hp]
  simp only [h.2, hc, hl, decide_eq_false (Nat.not_le.mpr hn), pageEarly_none hh hm, hs]
  rfl

/-- A page that a sweep has yet to do is asked for first (R135). -/
theorem pageForm_asks_sweep {r page : Nat} (h : ReadyAs s u m c) (hp : m.priv = true) (hf : PageForm m i d a arg b)
    (hc : s.spaceCheck c (m.reg a) = (s1, .ok p)) (hl : s1.walk p.die c.job p.key p.off = some l)
    (hh : (s1.die p.die).heldAt c.job p.key p.off = none) (hm : leafMode l.leaf ≠ 3)
    (hs : s1.unsweptIn p.die c.job p.key (p.off / 2 ^ sizeBits l.size * 2 ^ sizeBits l.size) (sizeUnits l.size) =
      some (r, page)) : exec i s = .next (s1.askSweep r page) := by
  obtain ⟨value, n, hexec, rfl, hn⟩ := hf.exec_eq s
  rw [hexec, pageWord, onWord_privileged h hp]
  simp only [h.2, hc, hl, decide_eq_false (Nat.not_le.mpr hn), pageEarly_none hh hm, hs]

/-- A page word completes, ends at once, holds its page, or asks a sweep for it (R177, R179). -/
theorem pageWord_acts {t : State} (h : ReadyAs s u m c) (hp : m.priv = true) (hw : PageWord s u m c i t) :
    exec i s = .next t := by
  cases hw with
  | tlbi p s1 q hc ho => exact tlbiWord_completes h hp hc ho
  | tlbiSp p s1 q hc ho => exact tlbiWord_completes h hp hc ho
  | unmapped i d a arg b s1 p hf hc hl => exact pageForm_ends_at_once h hp hf hc (by rw [hl]; rfl)
  | held i d a arg b s1 p l x hf hc hl hx => exact pageForm_ends_at_once h hp hf hc (by simp [pageEarly, hl, hx])
  | reserved i d a arg b s1 p l hf hc hl hx hm => exact pageForm_ends_at_once h hp hf hc (by simp [pageEarly, hl, hx, hm])
  | begins i d a arg b s1 p l hf hc hl hx hm hs => exact pageForm_holds h hp hf hc hl hx hm hs
  | sweptFirst i d a arg b s1 p l r page hf hc hl hx hm hs => exact pageForm_asks_sweep h hp hf hc hl hx hm hs

/-! ### The lease words -/

/-- A strand asks as a client of the die that it is resident on. -/
theorem clientOf_die (hc : s.clientOf m = some c) : c.die = locDie (m.place.getD 0) := by
  unfold State.clientOf at hc
  split at hc
  · next hplace _ =>
    cases hc
    rw [hplace]
    rfl
  · cases hc

/-- The lender of a descriptor that was read as one number. -/
theorem lender_of_descriptor (v : Nat) : BitVec.ofNat 12 (fld (wd v) 19 8) = BitVec.ofNat 12 (v / 2 ^ 8) := by
  apply BitVec.eq_of_toNat_eq
  simp only [fld, wd, BitVec.toNat_ofNat]
  omega

/-- A word of the descriptor. -/
theorem wd_mod (n : Nat) : wd (n % 2 ^ 64) = wd n :=
  BitVec.eq_of_toNat_eq (by simp [wd])

/-- LEND reads its descriptor once no store of its strand is out (R201), and asks the lender if that is reached (R187). -/
theorem exec_lend_reads {d q : Field} {v : Nat} (h : ReadyAs s u m c) (hp : m.priv = true) (ho : s.writesOut u = false)
    (hv : s.readVa c (m.reg q) 32 = (s1, .ok v)) :
    exec (.lend d q) s = .next (if s1.reach c.die (dieOfPeer (BitVec.ofNat 12 (v / 2 ^ 8))) 0 then
      (s1.send c.die (dieOfPeer (BitVec.ofNat 12 (v / 2 ^ 8))) (64 * s1.ids)
        (.lend (wd v) (wd (v / 2 ^ 64)) (wd (v / 2 ^ 128)) (wd (v / 2 ^ 192)) (.strand u d))).waitFor u .c .lease
      else s1.upd u fun k => (k.setReg d 5).retire .c) := by
  rw [exec_lend, execLend, onWord_privileged h hp]
  simp only [h.2, ho, hv, wd_mod, Nat.mul_zero, Nat.pow_zero, Nat.div_one, lender_of_descriptor, Nat.mul_one, Nat.reduceMul,
    Bool.false_eq_true, if_false]

/-- LEND asks the lender, ends with status 5, or waits for its strand's stores; RECLAIM writes its status (R187 to R189). -/
theorem leaseWord_acts {t : State} (h : ReadyAs s u m c) (hp : m.priv = true) (hw : LeaseWord s u m c i t) :
    exec i s = .next t := by
  cases hw with
  | lend d q s1 v ho hv hr =>
    rw [exec_lend_reads h hp ho hv, if_pos hr]
    rfl
  | lendAfterStores d q ho =>
    rw [exec_lend, execLend, onWord_privileged h hp]
    simp [h.2, ho]
  | lendLost d q s1 v ho hv hr => rw [exec_lend_reads h hp ho hv, if_neg (Bool.eq_false_iff.mp hr)]
  | reclaim d q s1 status hl hs =>
    rw [exec_reclaim, execReclaim, onWord_privileged h hp]
    rw [clientOf_die h.2] at hl hs
    simp only [hl, hs, Bool.false_eq_true, if_false]

end

/-- Settles O33: each word comes to its own entry, and there to the state that its constructor gives. -/
theorem pageAndLeaseWordsComplete : Obligations.PageAndLeaseWordsComplete :=
  ⟨fun _ _ _ _ _ _ => pageWord_acts, fun _ _ _ _ _ _ => leaseWord_acts⟩

/-! ### The rows of the page engines -/

section

variable {s : State}

/-- The procedure that holds the page of its word's address takes effect, and the word retires with its status (R179 to R183). -/
theorem exec_pageProcedureDone_ends {loc : Loc} {u : Nat} {m : Strand} {c : Client} {w : WalkWord} {i : Instr} {d a : Field}
    {arg x : Word} {b : Bool} {k : DieKey} {h : Held} {status : Nat} {s1 : State} (hu : s.onBank loc.toNat = some (u, m))
    (hwait : m.c.wait = .page) (hword : m.wordAt m.c.pos = some w) (hdec : decode w.bits = some i) (hc : s.clientOf m = some c)
    (hf : PageForm m i d a arg b) (hheld : s.heldBy u c (m.reg a) = some (k, h, x))
    (hout : s.translatedOut h.job h.key = false) (hdie : s.dieHeld k = false)
    (hsnap : s.uncopiedIn k h.job h.key h.off (sizeUnits h.size.toNat) = none) (hend : s.pageEnd i k h x = (status, s1)) :
    exec (.pageProcedureDone loc) s =
      .next (((s1.dropHolds u).upd u fun n => (n.setReg d (wd status)).retire .c).takeFault u) := by
  rw [exec_pageProcedureDone, execPageProcedureDone]
  cases hf <;> simp [hu, hwait, hword, hdec, hc, hheld, pageDst, hout, hdie, hsnap, hend]

/-- The copy that a hold stands for, if it is a hardware migration's (R173). -/
def Held.migration? (h : Held) : Option (Held × DieKey × Nat) := match h.by_ with
  | .hwMigration home f => some (h, home, f)
  | _ => none

/-- The copy that a die began first is the one that is found. -/
theorem FirstMigration.find {v : Die} {h : Held} {home : DieKey} {f : Nat} (hm : FirstMigration v h home f) :
    v.held.findSome? Held.migration? = some (h, home, f) := by
  obtain ⟨before, after, hheld, hby, hfirst⟩ := hm
  rw [List.findSome?_eq_some_iff]
  refine ⟨before, h, after, hheld, by rw [Held.migration?, hby], fun x hx => ?_⟩
  unfold Held.migration?
  split
  · next hx2 => exact absurd hx2 (hfirst x hx _ _)
  · rfl

/-- What the end of a hardware migration comes to once its hold is gone (R173): the page moves under its leaf, or the frame that
was taken for it goes back to the new home (log 107). -/
def migrationEnd (s1 : State) (die : DieKey) (h : Held) (home : DieKey) (f : Nat) : State :=
  match s1.walk die h.job h.key h.off with
  | some l =>
    if l.size ≠ 0 || leafMode l.leaf ≠ 2 || !s1.reach die home h.off || !s1.reach die (leafPlace die l.leaf).1 h.off then
      s1.updDie home fun v => v.giveFrames false f 1
    else
      (((s1.movePage h.job die l.leaf (movedLeaf l.leaf die home false f)).setPhysWord die l.lpddr l.at_
        (movedLeaf l.leaf die home false f)).freeLeaf die l.leaf).invalPage die h.job h.key h.off
  | none => s1.updDie home fun v => v.giveFrames false f 1

theorem exec_hwMigrationDone_ends {die home : DieKey} {h : Held} {f : Nat} (hm : FirstMigration (s.die die) h home f)
    (hout : s.translatedOut h.job h.key = false) (hdie : s.dieHeld die = false)
    (hsnap : s.uncopiedIn die h.job h.key h.off 1 = none) :
    exec (.hwMigrationDone die) s = .next (migrationEnd (migrated s die h) die h home f) := by
  rw [exec_hwMigrationDone, execHwMigrationDone]
  split
  · next e => cases hm.find.symm.trans e
  · next e =>
    cases hm.find.symm.trans e
    simp only [hout, hdie, hsnap, Bool.or_self, Bool.false_eq_true, if_false]
    rfl

theorem migrationEnd_moves {die home : DieKey} {h : Held} {f : Nat} {l : LeafAt} (hl : s.walk die h.job h.key h.off = some l)
    (hz : l.size = 0) (hm : leafMode l.leaf = 2) (hr : s.reach die home h.off = true)
    (hr2 : s.reach die (leafPlace die l.leaf).1 h.off = true) :
    migrationEnd s die h home f =
      (((s.movePage h.job die l.leaf (movedLeaf l.leaf die home false f)).setPhysWord die l.lpddr l.at_
        (movedLeaf l.leaf die home false f)).freeLeaf die l.leaf).invalPage die h.job h.key h.off := by
  simp [migrationEnd, hl, hz, hm, hr, hr2]

theorem migrationEnd_stays {die home : DieKey} {h : Held} {f : Nat}
    (hno : ∀ l, s.walk die h.job h.key h.off = some l → l.size ≠ 0 ∨ leafMode l.leaf ≠ 2 ∨ s.reach die home h.off = false ∨
      s.reach die (leafPlace die l.leaf).1 h.off = false) :
    migrationEnd s die h home f = s.updDie home fun v => v.giveFrames false f 1 := by
  unfold migrationEnd
  split
  · next l hl =>
    rw [if_pos]
    simpa [or_assoc] using hno l hl
  · rfl

/-- A page's copy ends where the lender still serves the page and no snapshot has yet to copy it (R191, R193, R273). -/
theorem exec_pageDemoteDone_demotes {die : DieKey} {entry : BitVec 4} {p : Polder} {h : Held} {f : Nat} {g : LivePage}
    (hp : tabGet (s.die die).polders entry.toNat = some p) (hb : p.borrower = true) (hst : p.state = 3)
    (hcopy : (s.die die).copying entry.toNat = some (h, f)) (hout : s.translatedOut h.job h.key = false)
    (hdie : s.dieHeld die = false) (hg : s.current die p = some g)
    (hr : s.reach die (dieOfPeer p.lender) (leafFrame g.leaf * 65536) = true)
    (hl : (s.die (dieOfPeer p.lender)).lends (peerOf die) (leafFrame g.leaf) = true)
    (hsnap : s.uncopiedIn die h.job h.key h.off g.units = none) :
    exec (.pageDemoteDone die entry) s = .next (s.demote die entry.toNat p h f g) := by
  simp [execPageDemoteDone, hp, hb, hst, hcopy, hout, hdie, hg, hr, hl, hsnap]

/-- Each row ends the work of its engine (R173, R179, R193). -/
theorem pageRow_acts {i : Instr} {t : State} (hrow : PageRow s i t) : exec i s = .next t := by
  cases hrow with
  | procedure loc u m c w i d a arg b k h x status s1 hu hwait hword hdec hc hf hheld hout hdie hsnap hend =>
    exact exec_pageProcedureDone_ends hu hwait hword hdec hc hf hheld hout hdie hsnap hend
  | migration die h home f l s1 hm hout hdie hsnap hs1 hl hz hmode hr hr2 =>
    subst hs1
    rw [exec_hwMigrationDone_ends hm hout hdie hsnap, migrationEnd_moves hl hz hmode hr hr2]
  | migrationStays die h home f s1 hm hout hdie hsnap hs1 hno =>
    subst hs1
    rw [exec_hwMigrationDone_ends hm hout hdie hsnap, migrationEnd_stays hno]
  | demotion die entry p h f g hp hb hst hcopy hout hdie hg hr hl hsnap =>
    exact exec_pageDemoteDone_demotes hp hb hst hcopy hout hdie hg hr hl hsnap

/-! ### The rows of the lease messages -/

variable {q : Msg}

/-- A descriptor that is well formed, has an entry and meets no lease of the die is offered to its borrower (R187). -/
theorem exec_lendRequest_offers {w0 w1 w2 w3 : Word} {who : Asker} {i : Nat} (h : Due s q) (hb : q.body = .lend w0 w1 w2 w3 who)
    (hw : lendMalformed w0 w1 w2 w3 = false) (hi : (s.die q.dst).freeEntry = some i)
    (ho : ((s.die q.dst).polders.any fun e => !e.2.borrower && e.2.meets (polderOf w0 w1 w2 1 false)) = false) :
    exec .lendRequest s = .next (((s.dropMsg q.id).updDie q.dst fun v => { v with
      polders := tabPut v.polders i (polderOf w0 w1 w2 1 false) }).send q.dst (dieOfPeer (polderOf w0 w1 w2 1 false).borrow)
        (64 * s.ids) (.offer i (polderOf w0 w1 w2 1 false) who)) := by
  simp only [exec_lendRequest, execLendRequest, h.subjectMsg, hb, hw, State.dropMsg_die, hi, ho, Bool.false_eq_true, if_false,
    State.updDie_ids, State.dropMsg_ids]

/-- An offer that a borrower has declined frees the lender's entry (R189, R190). -/
theorem offerFails_offered {d : DieKey} {i : Nat} {status : BitVec 8} {who : Asker} {p : Polder}
    (hp : tabGet (s.die d).polders i = some p) (hb : p.borrower = false) (hst : p.state = 1) :
    s.offerFails d i status who = (s.freePolder d i).lendAnswer d status 0 0 who := by
  simp [State.offerFails, hp, hb, hst]

/-- Where both entries are gone the asker hears status 5, and nothing else changes (log 83). -/
theorem answerLost_gone {lender borrower : DieKey} {i j : Nat} {who : Asker}
    (hi : tabGet (s.die lender).polders i = none) (hj : tabGet (s.die borrower).polders j = none) :
    s.answerLost lender borrower i (some j) who = s.lendAnswer lender 5 0 0 who := by
  simp [State.answerLost, State.offerFails, hi, hj]

/-- Each lease message acts at its die's entry, or only answers (R187, R190, R193, R196, R197). -/
theorem leaseRow_acts {i : Instr} {t : State} (h : Due s q) (hrow : LeaseRow s q i t) : exec i s = .next t := by
  cases hrow with
  | malformed w0 w1 w2 w3 who hb hw => simp [execLendRequest, h.subjectMsg, hb, hw]
  | noEntry w0 w1 w2 w3 who hb hw hi => simp [execLendRequest, h.subjectMsg, hb, hw, hi]
  | overlaps w0 w1 w2 w3 who i hb hw hi ho =>
    simp only [exec_lendRequest, execLendRequest, h.subjectMsg, hb, hw, State.dropMsg_die, hi, ho, Bool.false_eq_true, if_false,
      if_true]
  | offered w0 w1 w2 w3 who i hb hw hi ho => exact exec_lendRequest_offers h hb hw hi ho
  | taken le p who j hb hj => simp [execLeaseOffer, h.subjectMsg, hb, hj]
  | declined le p who hb hj => simp [execLeaseOffer, h.subjectMsg, hb, hj]
  | active i j who p hb hp hborrow hst => simp [execOfferAnswer, h.subjectMsg, hb, hp, hborrow, hst]
  | failed i who p hb hp hborrow hst =>
    simp [execOfferAnswer, h.subjectMsg, hb, offerFails_offered (s := s.dropMsg q.id) hp hborrow hst]
  | gone i j who hb hi hj =>
    simp [execOfferAnswer, h.subjectMsg, hb, hi, answerLost_gone (s := s.dropMsg q.id) hi hj]
  | reclaiming le i p hb hp hborrow hst hl => simp [execReclaimEvent, h.subjectMsg, hb, hp, hborrow, hst, hl]
  | returned i p hb hp hborrow hst hd hl =>
    simp [execReturnMessage, h.subjectMsg, hb, hp, Polder.serves_reclaiming hborrow hst hd, hst, hl]
  | returnedLate i p hb hp hd hst => simp [execReturnMessage, h.subjectMsg, hb, hp, Polder.serves, hd, hst]
  | fenced i p hb hp hl => simp [execFenceMessage, h.subjectMsg, hb, hp, hl]

/-- A deadline that has run down fences the lender's entry, and tells its software and the borrower (R197). -/
theorem exec_reclaimDeadline_fences {die : DieKey} {entry : BitVec 4} {p : Polder}
    (hp : tabGet (s.die die).polders entry.toNat = some p) (hb : p.borrower = false) (hst : p.state = 3) (hd : p.dleft = 0) :
    exec (.reclaimDeadline die entry) s = .next
      (let s1 := (s.updPolder die entry.toNat fun p => { p with state := 5 }).leaseNote die entry.toNat p 5
       s1.send die (dieOfPeer p.borrow) (64 * s1.ids) (.fence p.peer)) := by
  simp [execReclaimDeadline, hp, hb, hst, hd]

end

/-- Settles O34: each engine's row and each lease message acts as its constructor says, and so does a deadline that has run down. -/
theorem pageEnginesAndLeaseMessagesAct : Obligations.PageEnginesAndLeaseMessagesAct :=
  ⟨fun _ _ _ => pageRow_acts, fun _ _ _ _ => leaseRow_acts, fun _ _ _ _ => exec_reclaimDeadline_fences⟩

end Sys2Proof
end
